-- ==== Sys2Proof/Word.lean ====
section
/-! DEFINITION. The word and slice types (00_scope.md R9, R11, R18). -/

namespace Sys2Proof

/-- A Word: "a 256-bit unsigned integer value" (R18), the type of both operands and of the result. -/
abbrev Word := BitVec 256

/-- A Slice: one of the 32 fixed 8-bit chunks of a Word (R11, R18). -/
abbrev Slice := BitVec 8

end Sys2Proof
end

