-- ==== Sys2Proof/Machine/State.lean ====
section
/-! DEFINITION. The state a step reads and writes, the reasons it can stop, and the state after reset. -/

namespace Sys2Proof.Machine

/-- The values on the block's ports (10_state.md R20). The block itself holds no state (R21 to R27): an input port
holds what the host presents, an output port what the last evaluation drove. Log entries 1 and 14. -/
structure State where
  /-- in: first operand. -/
  op1 : Word
  /-- in: second operand. -/
  op2 : Word
  /-- in: LaneWidth selector (30_encoding.md R61). -/
  width : BitVec 2
  /-- in: Operation selector (30_encoding.md R62). -/
  op : BitVec 3
  /-- out: the one 256-bit result. -/
  result : Word
  /-- out: the LaneMask vector, bit `i` for slice `i` (40_lanemask.md R80). -/
  cont : BitVec 32
  /-- out: `cfg_err`, the cause code of the evaluation (60_exceptions.md R160). -/
  cfgErr : BitVec 1
  deriving DecidableEq, Repr

/-- What an evaluation under the invalid selector leaves to see (60_exceptions.md R160): the recorded selectors, and
the outputs it drives. There is no field for `result`, which has no defined value then. -/
structure ConfigErrorInfo where
  op : BitVec 3
  width : BitVec 2
  cfgErr : BitVec 1
  cont : BitVec 32
  deriving DecidableEq, Repr

/-- The reasons a step stops. -/
inductive Fault where
  /-- ConfigError: `op` names no operation. Raised by `raiseConfigError`, from `step` alone, as 60_exceptions.md R160
  asks of a model. Safe: a run that reaches it claims nothing about `result`. -/
  | configError (info : ConfigErrorInfo)
  deriving DecidableEq, Repr

/-- The reasons the model has no meaning for an instruction. -/
inductive Refusal where
  /-- An instruction of the table that has no meaning yet; raised by an arm of `exec` alone. Safe. -/
  | notModelled (mnemonic : String)
  deriving DecidableEq, Repr

/-- The machine before the host has presented anything. The spec states no reset value, for want of state
(10_state.md R29, 70_reset_and_hazards.md R180). DESIGN CHOICE, unsafe: every input port at 0 (log entry 2), and every
output port at the value that those inputs settle to by 70_reset_and_hazards.md R181 (log entry 3). -/
def State.reset : State :=
  { op1 := 0#256, op2 := 0#256, width := 0b00#2, op := 0b000#3, result := 0#256, cont := 0x00000000#32, cfgErr := 0#1 }

end Sys2Proof.Machine
end

