-- ==== Sys2Proof/Machine/Flags.lean ====
section
/-! DEFINITION. The block has no flags (10_state.md R25). Its one 1-bit output is `cfg_err`, which carries the cause code
of the evaluation (60_exceptions.md R160). -/

namespace Sys2Proof.Machine

/-- The cause code of a valid evaluation (R160). -/
def causeValid : BitVec 1 := 0#1

/-- The cause code of a ConfigError (R160). -/
def causeConfigError : BitVec 1 := 1#1

end Sys2Proof.Machine
end

