-- ==== Sys2Proof/Config.lean ====
section
/-! DEFINITION. The parameters of the block (00_scope.md R9, R10). -/

namespace Sys2Proof.Config

/-- `NSLICES` (R9): slices in a Word. -/
abbrev nslices : Nat := 32

/-- `T_EVAL` (R10): the time from stable inputs to a settled output. The source gives no value (decision D14),
so it has none here, and no definition of the model reads it. Log entry 8. -/
opaque tEval : Nat

end Sys2Proof.Config
end

