-- ==== Sys2Proof/Syntax.lean ====
section
/-! DEFINITION. The instructions: one constructor per row of the opcode table (30_encoding.md R62, R63). -/

namespace Sys2Proof

/-- The LaneWidth enumeration, in the source's order (30_encoding.md R61). -/
inductive LaneWidth where
  | w8
  | w16
  | w32
  | w64
  deriving DecidableEq, Repr

/-- The seven operations, each at a lane width (30_encoding.md R62). An instruction has no other field: its data
comes from the operand ports (R64). -/
inductive Instr where
  /-- `ADD.Wn` (41_addsub.md R95). -/
  | add (w : LaneWidth)
  /-- `SUB.Wn` (41_addsub.md R96). -/
  | sub (w : LaneWidth)
  /-- `EQ.Wn` (42_compare.md R114). -/
  | eq (w : LaneWidth)
  /-- `GT.Wn` (42_compare.md R115). -/
  | gt (w : LaneWidth)
  /-- `LT.Wn` (42_compare.md R116). -/
  | lt (w : LaneWidth)
  /-- `SHL.Wn` (43_shift.md R132). -/
  | shl (w : LaneWidth)
  /-- `SHR.Wn` (43_shift.md R133). -/
  | shr (w : LaneWidth)
  deriving DecidableEq, Repr

/-- A pair of selectors held in a type wider than the ports, as 30_encoding.md R69 allows for. Only some such pairs
name an instruction: see `Selectors.wellFormed`. -/
structure Selectors where
  op : Nat
  width : Nat
  deriving DecidableEq, Repr

end Sys2Proof
end

