-- ==== Sys2Proof/WellFormed.lean ====
section
/-! DEFINITION. Which selectors and instructions are well formed (30_encoding.md R61, R62, R66, R69). -/

namespace Sys2Proof

/-- The Operation is one of the 7 and the LaneWidth one of the 4 (R69). -/
def Selectors.wellFormed (s : Selectors) : Bool :=
  decide (s.op < 7) && decide (s.width < 4)

/-- Every instruction is well formed: the type `LaneWidth` holds the four widths and no more, and an instruction has
no other field (R66). The checks with something to refuse are `Selectors.wellFormed` and the decoder's. -/
def Instr.wellFormed : Instr → Bool
  | .add _ => true
  | .sub _ => true
  | .eq _ => true
  | .gt _ => true
  | .lt _ => true
  | .shl _ => true
  | .shr _ => true

end Sys2Proof
end

