-- ==== Sys2Proof/Decode.lean ====
section
/-! DEFINITION. Decoding and encoding of the control word (30_encoding.md R60 to R69). -/

namespace Sys2Proof

/-- Why selectors name no instruction; each is the ConfigError of 60_exceptions.md R160 (R65, R69, R161). -/
inductive DecodeError where
  /-- The Operation selector is none of the seven codes (R65, R69). Safe: nothing runs. -/
  | invalidOperation (op : Nat)
  /-- The LaneWidth selector is none of the four codes (R69, R161). The 2-bit port cannot hold one. Safe. -/
  | invalidWidth (width : Nat)
  deriving DecidableEq, Repr

/-- The lane width `W` in bits (R61: `W = 8 * 2^width`). -/
@[reducible] def LaneWidth.bits : LaneWidth → Nat
  | .w8 => 8
  | .w16 => 16
  | .w32 => 32
  | .w64 => 64

/-- Slices per lane, `K = W / 8` (00_scope.md R9). -/
@[reducible] def LaneWidth.slices (w : LaneWidth) : Nat := w.bits / 8

/-- Lanes in a Word, `N = 256 / W` (00_scope.md R9). -/
@[reducible] def LaneWidth.lanes (w : LaneWidth) : Nat := 256 / w.bits

/-- The code of a lane width on the `width` port (R61). -/
def LaneWidth.code : LaneWidth → BitVec 2
  | .w8 => 0b00#2
  | .w16 => 0b01#2
  | .w32 => 0b10#2
  | .w64 => 0b11#2

/-- The lane width a selector value names, if it is one of the four (R61, R69). -/
def LaneWidth.ofNat? : Nat → Option LaneWidth
  | 0 => some .w8
  | 1 => some .w16
  | 2 => some .w32
  | 3 => some .w64
  | _ => none

/-- The lane width on the `width` port: every 2-bit code names one, and `11`, the last, names W64 (R61). -/
def LaneWidth.ofCode (c : BitVec 2) : LaneWidth :=
  if c = 0b00#2 then .w8 else if c = 0b01#2 then .w16 else if c = 0b10#2 then .w32 else .w64

/-- The decoder on selectors of any size (R62, R68, R69): an instruction, or the reason there is none. -/
def decodeSelectors (s : Selectors) : Except DecodeError Instr :=
  match LaneWidth.ofNat? s.width with
  | none => .error (.invalidWidth s.width)
  | some w =>
    match s.op with
    | 0 => .ok (.add w)
    | 1 => .ok (.sub w)
    | 2 => .ok (.eq w)
    | 3 => .ok (.gt w)
    | 4 => .ok (.lt w)
    | 5 => .ok (.shl w)
    | 6 => .ok (.shr w)
    | n + 7 => .error (.invalidOperation (n + 7))

/-- The decoder of a control word given as a number: `op` is everything above bit 1 and `width` is bits 1..0
(R60). DESIGN CHOICE: a number too large for five bits is read as having an Operation outside the seven, which R69 rejects
(log entry 7). -/
def decodeNat (n : Nat) : Except DecodeError Instr :=
  decodeSelectors { op := n / 4, width := n % 4 }

/-- The decoder of the control word `ctrl[4:0] = {op[2:0], width[1:0]}` (R60, R68). -/
def decode (ctrl : BitVec 5) : Except DecodeError Instr := decodeNat ctrl.toNat

/-- The lane width of an instruction. -/
@[reducible] def Instr.width : Instr → LaneWidth
  | .add w => w
  | .sub w => w
  | .eq w => w
  | .gt w => w
  | .lt w => w
  | .shl w => w
  | .shr w => w

/-- The Operation code of an instruction (R62). -/
def Instr.opCode : Instr → BitVec 3
  | .add _ => 0b000#3
  | .sub _ => 0b001#3
  | .eq _ => 0b010#3
  | .gt _ => 0b011#3
  | .lt _ => 0b100#3
  | .shl _ => 0b101#3
  | .shr _ => 0b110#3

/-- The control word of an instruction (R60, R63). -/
def encode (i : Instr) : BitVec 5 := i.opCode ++ i.width.code

/-- The low `nbits` bits of a number: the instruction's bits, every bit above them being 0. -/
def tableBits (nbits w : Nat) : Nat := w % 2 ^ nbits

/-- The instruction the decoder reads from a row of the opcode table, whose numbering is the control word's own (R63). -/
def decodeTableWord (nbits w : Nat) : Option Instr :=
  match decodeNat (tableBits nbits w) with
  | .ok i => some i
  | .error _ => none

end Sys2Proof
end

