-- ==== Sys2Proof/Machine/Operands.lean ====
section
/-! DEFINITION. Slices and lanes of a Word, and Words built from them (00_scope.md R11 to R15, 20_memory.md R43 to R45). -/

namespace Sys2Proof.Machine

/-- `slice(v, i) = v[8*i+7 : 8*i]` (R12). -/
def slice (v : Word) (i : Nat) : Slice := v.extractLsb' (8 * i) 8

/-- `lane(v, j, W) = v[W*j+W-1 : W*j]` (R12). -/
def lane (v : Word) (j : Nat) (w : LaneWidth) : BitVec w.bits := v.extractLsb' (w.bits * j) w.bits

/-- `laneOf(i, W) = i div K`: the lane that holds slice `i` (R12). -/
def laneOf (i : Nat) (w : LaneWidth) : Nat := i / w.slices

/-- `lo(j, W) = K*j`: the least significant slice of lane `j` (R12). -/
def loSlice (j : Nat) (w : LaneWidth) : Nat := w.slices * j

/-- `hi(j, W) = K*j + K - 1`: the most significant slice of lane `j` (R12). -/
def hiSlice (j : Nat) (w : LaneWidth) : Nat := w.slices * j + w.slices - 1

/-- The concatenation `{f(k-1), ..., f(0)}` of `k` pieces of `n` bits, `f(0)` least significant, as a number (R13). -/
def concatNat (n : Nat) (f : Nat → BitVec n) : Nat → Nat
  | 0 => 0
  | k + 1 => concatNat n f k + 2 ^ (n * k) * (f k).toNat

/-- The Word of 32 slices, `f 0` least significant (R13, R43). -/
def joinSlices (f : Nat → Slice) : Word := BitVec.ofNat 256 (concatNat 8 f Config.nslices)

/-- The Word of `N` lanes, `f 0` being lane 0 (R15). -/
def joinLanes (w : LaneWidth) (f : Nat → BitVec w.bits) : Word :=
  BitVec.ofNat 256 (concatNat w.bits f w.lanes)

end Sys2Proof.Machine
end

