-- ==== Sys2Proof/Machine/LaneMask.lean ====
section
/-! DEFINITION. The lane-mask generator (40_lanemask.md R80 to R83). -/

namespace Sys2Proof.Machine

/-- `cont[i]`: slice `i` is not the most significant slice of its lane (R80). -/
def contBit (w : LaneWidth) (i : Nat) : Bool := decide (i % w.slices ≠ w.slices - 1)

/-- `LaneMask(W)`, the vector `cont[31:0]` (R80). -/
def laneMask (w : LaneWidth) : BitVec 32 :=
  BitVec.ofNat 32 (concatNat 1 (fun i => BitVec.ofBool (contBit w i)) Config.nslices)

/-- `top(i)` of a mask vector: slice `i` closes a lane (R83). -/
def isTop (cont : BitVec 32) (i : Nat) : Bool := !cont.getLsbD i

/-- `laneStart(i)` of a mask vector: slice `i` is the least significant of its lane (R83). -/
def isLaneStart (cont : BitVec 32) : Nat → Bool
  | 0 => true
  | i + 1 => !cont.getLsbD i

/-- `fusedBelow(i)` of a mask vector: slice `i` receives state from slice `i - 1` (R83). -/
def isFusedBelow (cont : BitVec 32) : Nat → Bool
  | 0 => false
  | i + 1 => cont.getLsbD i

end Sys2Proof.Machine
end

