-- ==== Sys2Proof/Machine/Ops.lean ====
section
/-! DEFINITION. The operations over the ports that every evaluation shares: presenting inputs, reading the selectors,
driving the outputs, and the one error. -/

namespace Sys2Proof.Machine

/-- The control word on the selector ports, `{op, width}` (30_encoding.md R60). -/
def State.controlWord (s : State) : BitVec 5 := s.op ++ s.width

/-- The instruction the selector ports name. The block fetches nothing: the selectors arrive with each evaluation
(20_memory.md R54). -/
def State.fetch (s : State) : Except DecodeError Instr := decode s.controlWord

/-- The host presents a control word on the selector ports (30_encoding.md R60). Never part of a step. DESIGN CHOICE,
unsafe: the output ports keep what they held until the next step, where R181 of 70_reset_and_hazards.md gives them no
defined value (log entry 14). -/
def State.presentControl (s : State) (ctrl : BitVec 5) : State :=
  { s with op := ctrl.extractLsb' 2 3, width := ctrl.extractLsb' 0 2 }

/-- The host presents both operands (10_state.md R28: any value on either). Never part of a step. DESIGN CHOICE, unsafe:
the output ports keep what they held until the next step (log entry 14). -/
def State.presentOperands (s : State) (a b : Word) : State :=
  { s with op1 := a, op2 := b }

/-- The host presents the control word that a row of the opcode table numbers `w`. A number that does not fit the five
bits names no instruction, and is presented as the invalid selector at the width of its low bits, never as the
instruction its low bits would name (30_encoding.md R69). Log entry 7; the output ports are as in log entry 14. -/
def State.presentTableWord (s : State) (nbits w : Nat) : State :=
  let n := tableBits nbits w
  if n < 32 then s.presentControl (BitVec.ofNat 5 n)
  else s.presentControl (0b111#3 ++ BitVec.ofNat 2 n)

/-- A valid evaluation at lane width `w` drives its outputs: the result, `cont = LaneMask(W)` and `cfg_err = 0`
(44_evaluate.md R150). It leaves every input port as it is. -/
def State.drive (s : State) (r : Word) (w : LaneWidth) : State :=
  { s with result := r, cont := laneMask w, cfgErr := causeValid }

/-- `raise ConfigError`, the one error of the block (60_exceptions.md R160): it records `op` and `width`, drives
`cfg_err = 1` and `cont = LaneMask(W)`, and gives `result` no value. It saves no state and transfers no control (R165). -/
def raiseConfigError (s : State) : Host.Outcome State Fault Refusal :=
  .fault (.configError
    { op := s.op, width := s.width, cfgErr := causeConfigError, cont := laneMask (LaneWidth.ofCode s.width) })

end Sys2Proof.Machine
end

