-- ==== Sys2Proof/Machine/AddSub.lean ====
section
/-! DEFINITION. The multi-lane adder/subtractor and its two instructions (41_addsub.md R90 to R97). -/

namespace Sys2Proof.Machine

/-- The second operand the slice adders see: `b = sub ? ~op2 : op2` (R91). -/
def condition (b : Word) (sub : Bool) : Word := if sub then ~~~b else b

/-- The slice adder: `sum = op1_slice + op2_slice + carry_in` as a 9-bit result (R92). -/
def sliceSum (x y : Slice) (cin : Bool) : BitVec 9 :=
  x.zeroExtend 9 + y.zeroExtend 9 + (BitVec.ofBool cin).zeroExtend 9

/-- `cin[i]`, the gated carry-in of slice `i` (R91): a lane-start slice takes `sub`, any other slice the carry-out
(bit 8) of the slice below. `b` is the conditioned operand. -/
def carryIn (cont : BitVec 32) (a b : Word) (sub : Bool) : Nat → Bool
  | 0 => sub
  | i + 1 =>
    if isLaneStart cont (i + 1) then sub
    else (sliceSum (slice a i) (slice b i) (carryIn cont a b sub i)).getLsbD 8

/-- `s[i]`, the 9-bit sum of slice `i` (R92). -/
def chainSum (cont : BitVec 32) (a b : Word) (sub : Bool) (i : Nat) : BitVec 9 :=
  sliceSum (slice a i) (slice b i) (carryIn cont a b sub i)

/-- `addsub(op1, op2, subtract, width)` (R90): the low 8 bits of every slice's sum, concatenated; every carry is
discarded (R93). -/
def addsub (a b : Word) (sub : Bool) (w : LaneWidth) : Word :=
  joinSlices fun i => (chainSum (laneMask w) a (condition b sub) sub i).setWidth 8

/-- `ADD.Wn` (R95). -/
def execAdd (w : LaneWidth) (s : State) : Host.Outcome State Fault Refusal :=
  .next (s.drive (addsub s.op1 s.op2 false w) w)

/-- `SUB.Wn` (R96). -/
def execSub (w : LaneWidth) (s : State) : Host.Outcome State Fault Refusal :=
  .next (s.drive (addsub s.op1 s.op2 true w) w)

end Sys2Proof.Machine
end

