-- ==== Sys2Proof/Machine/Compare.lean ====
section
/-! DEFINITION. The multi-lane comparator and its three instructions (42_compare.md R110 to R117). -/

namespace Sys2Proof.Machine

/-- SliceCompareResult: the "tristate" of R110. Its bit code inside the block is not architectural. -/
inductive Sign where
  | lt
  | eq
  | gt
  deriving DecidableEq, Repr

/-- `sign[i]` of two slices, compared as unsigned numbers (R110). -/
def sliceSign (x y : Slice) : Sign :=
  if y.toNat < x.toNat then .gt else if x.toNat < y.toNat then .lt else .eq

/-- The fold of R111 over the `n` slices `lo .. lo+n-1`, from the most significant one downward: a slice that differs
decides, else the next-lower slice does. -/
def signFold (a b : Word) (lo : Nat) : Nat → Sign
  | 0 => .eq
  | n + 1 =>
    match sliceSign (slice a (lo + n)) (slice b (lo + n)) with
    | .eq => signFold a b lo n
    | .gt => .gt
    | .lt => .lt

/-- `laneSign(j)` (R111). -/
def laneSign (a b : Word) (w : LaneWidth) (j : Nat) : Sign :=
  signFold a b (loSlice j w) w.slices

/-- `p[i]`, the same fold as upward propagation gated by the mask vector: R111's second form. -/
def signChain (cont : BitVec 32) (a b : Word) : Nat → Sign
  | 0 => sliceSign (slice a 0) (slice b 0)
  | i + 1 =>
    match isFusedBelow cont (i + 1), sliceSign (slice a (i + 1)) (slice b (i + 1)) with
    | true, .eq => signChain cont a b i
    | _, r => r

/-- `mask(j) = pred(j) ? ones(W) : 0` (R113). -/
def predicateMask (w : LaneWidth) (p : Bool) : BitVec w.bits :=
  if p then BitVec.allOnes w.bits else 0#w.bits

/-- `compare(op1, op2, width, operation)`: the predicate mask of the lanes whose sign is `want` (R113 to R116). -/
def compareLanes (a b : Word) (w : LaneWidth) (want : Sign) : Word :=
  joinLanes w fun j => predicateMask w (decide (laneSign a b w j = want))

/-- `EQ.Wn` (R114). -/
def execEq (w : LaneWidth) (s : State) : Host.Outcome State Fault Refusal :=
  .next (s.drive (compareLanes s.op1 s.op2 w .eq) w)

/-- `GT.Wn` (R115). -/
def execGt (w : LaneWidth) (s : State) : Host.Outcome State Fault Refusal :=
  .next (s.drive (compareLanes s.op1 s.op2 w .gt) w)

/-- `LT.Wn` (R116). -/
def execLt (w : LaneWidth) (s : State) : Host.Outcome State Fault Refusal :=
  .next (s.drive (compareLanes s.op1 s.op2 w .lt) w)

end Sys2Proof.Machine
end

