-- ==== Sys2Proof/Machine/Shift.lean ====
section
/-! DEFINITION. The multi-lane logical shifter and its two instructions (43_shift.md R130 to R135). -/

namespace Sys2Proof.Machine

/-- The direction argument of `shift` (44_evaluate.md R151). -/
inductive Direction where
  | left
  | right
  deriving DecidableEq, Repr

/-- One lane shifted by an unsigned amount: an amount of the lane width or more gives 0 (R131), any other shifts by
exactly that many positions with zero fill (R132, R133). -/
def shiftLane (w : LaneWidth) (v n : BitVec w.bits) (d : Direction) : BitVec w.bits :=
  if w.bits ≤ n.toNat then 0#w.bits
  else match d with
    | .left => v <<< n.toNat
    | .right => v >>> n.toNat

/-- `shift(op1, op2, width, direction)`: each lane by the whole lane of `op2` at the same position (R130). -/
def shiftLanes (a b : Word) (w : LaneWidth) (d : Direction) : Word :=
  joinLanes w fun j => shiftLane w (lane a j w) (lane b j w) d

/-- `rev(v)[k] = v[255 - k]` (R134). -/
def rev (v : Word) : Word := v.reverse

/-- `mirror(b)`: lane `N-1-j` is lane `j` of `b` (R134). -/
def mirror (b : Word) (w : LaneWidth) : Word :=
  joinLanes w fun j => lane b (w.lanes - 1 - j) w

/-- `SHL.Wn` (R132). -/
def execShl (w : LaneWidth) (s : State) : Host.Outcome State Fault Refusal :=
  .next (s.drive (shiftLanes s.op1 s.op2 w .left) w)

/-- `SHR.Wn` (R133). -/
def execShr (w : LaneWidth) (s : State) : Host.Outcome State Fault Refusal :=
  .next (s.drive (shiftLanes s.op1 s.op2 w .right) w)

end Sys2Proof.Machine
end

