-- ==== Sys2Proof/Machine/Dispatch.lean ====
section
/-! DEFINITION. One arm per instruction (44_evaluate.md R151, R152). -/

namespace Sys2Proof.Machine

def exec (i : Instr) (s : State) : Host.Outcome State Fault Refusal :=
  match i with
  | .add w => Sys2Proof.Machine.execAdd w s
  | .sub w => Sys2Proof.Machine.execSub w s
  | .eq w => Sys2Proof.Machine.execEq w s
  | .gt w => Sys2Proof.Machine.execGt w s
  | .lt w => Sys2Proof.Machine.execLt w s
  | .shl w => Sys2Proof.Machine.execShl w s
  | .shr w => Sys2Proof.Machine.execShr w s

end Sys2Proof.Machine
end

