-- ==== Sys2Proof/Machine/Step.lean ====
section
/-! DEFINITION. One step: one evaluation of the inputs on the ports (44_evaluate.md R150). -/

namespace Sys2Proof.Machine

/-- One evaluation, atomic, of settled inputs to settled outputs (R150, 70_reset_and_hazards.md R183; log entry 4). -/
def step (s : State) : Host.Outcome State Fault Refusal :=
  match s.fetch with
  | .ok i => exec i s
  | .error _ => raiseConfigError s

/-- The state with an opcode-table word on the selector ports, where `step` reads its instruction (log entry 5). The
output ports keep what they held until that step (log entry 14). -/
def State.withFetchWord (s : State) (nbits w : Nat) : State := s.presentTableWord nbits w

end Sys2Proof.Machine
end

