-- ==== Sys2Proof/Machine/Evaluate.lean ====
section
/-! DEFINITION. The evaluation function as 44_evaluate.md R150 and R151 write it, and the outputs read off an outcome.
`step` does not call them: they are the terms that claims about a whole evaluation use. -/

namespace Sys2Proof.Machine

/-- The outcome of `Eval` (R150): `Ok(result, cont)` or `ConfigError(op)`. -/
inductive EvalOutcome where
  | ok (result : Word) (cont : BitVec 32)
  | configError (op : BitVec 3)
  deriving DecidableEq, Repr

/-- `Eval(op, width, op1, op2)` by the dispatch on the operation selector (R151). -/
def eval (op : BitVec 3) (width : BitVec 2) (a b : Word) : EvalOutcome :=
  let w := LaneWidth.ofCode width
  match op.toNat with
  | 0 => .ok (addsub a b false w) (laneMask w)
  | 1 => .ok (addsub a b true w) (laneMask w)
  | 2 => .ok (compareLanes a b w .eq) (laneMask w)
  | 3 => .ok (compareLanes a b w .gt) (laneMask w)
  | 4 => .ok (compareLanes a b w .lt) (laneMask w)
  | 5 => .ok (shiftLanes a b w .left) (laneMask w)
  | 6 => .ok (shiftLanes a b w .right) (laneMask w)
  | _ => .configError op

/-- What the output ports show (R150); `none` for a `result` of no defined value. -/
structure Outputs where
  result : Option Word
  cont : BitVec 32
  cfgErr : BitVec 1
  deriving DecidableEq, Repr

/-- The outputs read off the outcome of a step (R150, 60_exceptions.md R160). A refusal shows none. -/
def outputs : Host.Outcome State Fault Refusal → Option Outputs
  | .next t => some { result := some t.result, cont := t.cont, cfgErr := t.cfgErr }
  | .fault (.configError e) => some { result := none, cont := e.cont, cfgErr := e.cfgErr }
  | .refused _ => none

end Sys2Proof.Machine
end

