-- ==== Sys2Proof/Safety.lean ====
section
/-! DEFINITION. What a claim says of a run: a valid selector, inputs left alone, and outputs that have settled to the lane
laws of the spec, written here in plain number arithmetic, apart from the datapaths of Machine/. -/

namespace Sys2Proof.Safety

open Sys2Proof.Machine

/-- The host's one duty: an `op` code `000` to `110` (70_reset_and_hazards.md R182). -/
def ValidSelector (s : State) : Prop := s.op ≠ 0b111#3

/-- The two states show the block the same inputs (44_evaluate.md R150: a step reads nothing else). -/
def SameInputs (s t : State) : Prop :=
  s.op1 = t.op1 ∧ s.op2 = t.op2 ∧ s.width = t.width ∧ s.op = t.op

/-- What an instruction puts in a lane, from the same lane of the two operands, as numbers: the lane laws of
41_addsub.md R94, 42_compare.md R112 with R113, and 43_shift.md R131 to R133. -/
def laneValue : Instr → Nat → Nat → Nat
  | .add w, x, y => (x + y) % 2 ^ w.bits
  | .sub w, x, y => (((x : Int) - (y : Int)) % 2 ^ w.bits).toNat
  | .eq w, x, y => if x = y then 2 ^ w.bits - 1 else 0
  | .gt w, x, y => if x > y then 2 ^ w.bits - 1 else 0
  | .lt w, x, y => if x < y then 2 ^ w.bits - 1 else 0
  | .shl w, x, y => if y ≥ w.bits then 0 else x * 2 ^ y % 2 ^ w.bits
  | .shr w, x, y => if y ≥ w.bits then 0 else x / 2 ^ y

/-- The outputs are those of instruction `i` on the present operands: every lane by its lane law, `cont` by
40_lanemask.md R80, `cfg_err` 0. -/
def OutputsAreOf (i : Instr) (s : State) : Prop :=
  (∀ j < i.width.lanes,
      (lane s.result j i.width).toNat
        = laneValue i (lane s.op1 j i.width).toNat (lane s.op2 j i.width).toNat) ∧
    (∀ k < 32, s.cont.getLsbD k = decide (k % (i.width.bits / 8) ≠ i.width.bits / 8 - 1)) ∧
    s.cfgErr = 0#1

/-- The outputs have settled to the evaluation of the present inputs (70_reset_and_hazards.md R181). -/
def Settled (s : State) : Prop :=
  ∃ i, s.fetch = .ok i ∧ OutputsAreOf i s

end Sys2Proof.Safety
end

