-- ==== Sys2Proof/Certificates/Slice0/Obligations.lean ====
section
/-! DEFINITION. The statements for the provers. OBLIGATIONS.json says of each which rules of spec/ it formalises. -/

open Sys2Proof Sys2Proof.Machine Sys2Proof.Safety

/-! ## Encoding (30_encoding.md) -/

/-- R61: the four LaneWidth codes, each with its lane width, lane count and slices per lane. -/
def Obligations.LaneWidthCodesNameTheFourWidths : Prop :=
  (LaneWidth.ofCode 0b00#2 = .w8 ∧ LaneWidth.ofCode 0b01#2 = .w16 ∧
    LaneWidth.ofCode 0b10#2 = .w32 ∧ LaneWidth.ofCode 0b11#2 = .w64) ∧
  (∀ c : BitVec 2, (LaneWidth.ofCode c).bits = 8 * 2 ^ c.toNat ∧
    (LaneWidth.ofCode c).lanes * (LaneWidth.ofCode c).bits = 256 ∧
    (LaneWidth.ofCode c).slices * 8 = (LaneWidth.ofCode c).bits ∧
    (LaneWidth.ofCode c).code = c)

/-- R62, R63: the complete opcode map, with the control word at its value `4*op + width`. -/
def Obligations.ControlWordsDecodeAsTheOpcodeMap : Prop :=
  ∀ c : BitVec 2,
    decode (BitVec.ofNat 5 (4 * 0 + c.toNat)) = .ok (.add (LaneWidth.ofCode c)) ∧
    decode (BitVec.ofNat 5 (4 * 1 + c.toNat)) = .ok (.sub (LaneWidth.ofCode c)) ∧
    decode (BitVec.ofNat 5 (4 * 2 + c.toNat)) = .ok (.eq (LaneWidth.ofCode c)) ∧
    decode (BitVec.ofNat 5 (4 * 3 + c.toNat)) = .ok (.gt (LaneWidth.ofCode c)) ∧
    decode (BitVec.ofNat 5 (4 * 4 + c.toNat)) = .ok (.lt (LaneWidth.ofCode c)) ∧
    decode (BitVec.ofNat 5 (4 * 5 + c.toNat)) = .ok (.shl (LaneWidth.ofCode c)) ∧
    decode (BitVec.ofNat 5 (4 * 6 + c.toNat)) = .ok (.shr (LaneWidth.ofCode c)) ∧
    decode (BitVec.ofNat 5 (4 * 7 + c.toNat)) = .error (.invalidOperation 7)

/-- Decoding and encoding are inverse to each other on every number, so that no number but the 28 control words of the
instructions, and no two of them, name one. On the 32 control words this is R60, R63 and R66. That a number of 32 or more is
read with `n / 4` as its Operation, and so names no instruction, is the model's choice of log entry 7 (DESIGN CHOICE),
after R69. -/
def Obligations.DecodeAndEncodeAgreeOnEveryNumber : Prop :=
  (∀ (n : Nat) (i : Instr), decodeNat n = .ok i ↔ (encode i).toNat = n) ∧
  (∀ (c : BitVec 5) (i : Instr), decode c = .ok i ↔ encode i = c) ∧
  (∀ n : Nat, (∃ i, decodeNat n = .ok i) ↔ n < 28) ∧
  (∀ i : Instr, (encode i).extractLsb' 2 3 = i.opCode ∧ (encode i).extractLsb' 0 2 = i.width.code)

/-- R69, R161, in the decoder: selectors of any size name an instruction exactly when the Operation is one of the seven and
the LaneWidth one of the four. -/
def Obligations.SelectorsNameAnInstructionOnlyInTheirRanges : Prop :=
  ∀ s : Selectors,
    (s.op < 7 → s.width < 4 → ∃ i, decodeSelectors s = .ok i ∧ i.opCode.toNat = s.op ∧ i.width.code.toNat = s.width) ∧
    (7 ≤ s.op ∨ 4 ≤ s.width → ∃ e, decodeSelectors s = .error e)

/-- A few control words of 95_test_vectors.md section 2.6, one of each operation and an illegal one. -/
def Obligations.SampleControlWordsDecode : Prop :=
  decode 0b00001#5 = .ok (.add .w16) ∧ decode 0b00111#5 = .ok (.sub .w64) ∧
  decode 0b01010#5 = .ok (.eq .w32) ∧ decode 0b01101#5 = .ok (.gt .w16) ∧
  decode 0b10010#5 = .ok (.lt .w32) ∧ decode 0b10100#5 = .ok (.shl .w8) ∧
  decode 0b11011#5 = .ok (.shr .w64) ∧ decode 0b11110#5 = .error (.invalidOperation 7)

/-! ## One evaluation (44_evaluate.md, 60_exceptions.md) -/

/-- A step runs the instruction that the selector ports name, and adds nothing around it. -/
def Obligations.StepRunsTheDecodedInstruction : Prop :=
  ∀ (s : State) (i : Instr), decode (s.op ++ s.width) = .ok i → i.wellFormed = true →
    step s = exec i s

/-- The model's own host interface (log entries 5, 7 and 14): an opcode-table word placed with `withFetchWord` is the next
instruction, and placing it touches neither operands nor outputs. That the outputs keep their values until the step is the
model's choice of log entry 14: R181 gives them no defined value then. A number too large for a control word is never run as an
instruction: the step is the ConfigError. -/
def Obligations.PlacedTableWordIsTheNextInstruction : Prop :=
  ∀ (s : State) (nbits w : Nat),
    (s.withFetchWord nbits w).op1 = s.op1 ∧ (s.withFetchWord nbits w).op2 = s.op2 ∧
    (s.withFetchWord nbits w).result = s.result ∧ (s.withFetchWord nbits w).cont = s.cont ∧
    (s.withFetchWord nbits w).cfgErr = s.cfgErr ∧
    (∀ i, decodeTableWord nbits w = some i →
      step (s.withFetchWord nbits w) = exec i (s.withFetchWord nbits w)) ∧
    (decodeTableWord nbits w = none → ∃ e, step (s.withFetchWord nbits w) = .fault (.configError e))

/-- R150, R151: the step is the function `Eval` of the four inputs, its outputs read off the outcome. -/
def Obligations.StepIsTheEvaluationFunction : Prop :=
  ∀ s : State,
    step s =
      match eval s.op s.width s.op1 s.op2 with
      | .ok r c => .next { s with result := r, cont := c, cfgErr := 0#1 }
      | .configError op =>
        .fault (.configError
          { op := op, width := s.width, cfgErr := 1#1, cont := laneMask (LaneWidth.ofCode s.width) })

/-- R160: the invalid selector, and it alone, ends the evaluation in ConfigError, which records both selectors, drives
`cfg_err = 1` and `cont`, and has no result. -/
def Obligations.InvalidSelectorAloneRaisesConfigError : Prop :=
  (∀ s : State, s.op = 0b111#3 →
    step s = .fault (.configError
      { op := 0b111#3, width := s.width, cfgErr := 1#1, cont := laneMask (LaneWidth.ofCode s.width) }) ∧
    outputs (step s) = some { result := none, cont := laneMask (LaneWidth.ofCode s.width), cfgErr := 1#1 }) ∧
  (∀ s : State, s.op ≠ 0b111#3 → ∃ t, step s = .next t ∧ t.cfgErr = 0#1 ∧
    outputs (step s) = some { result := some t.result, cont := laneMask (LaneWidth.ofCode s.width), cfgErr := 0#1 })

/-- R162: no instruction stops, whatever the operands; it changes no input port. -/
def Obligations.NoInstructionStopsForAnyOperands : Prop :=
  ∀ (i : Instr) (s : State), ∃ t, exec i s = .next t ∧ SameInputs s t ∧ t.cfgErr = 0#1

/-- R27: two evaluations with the same inputs have the same outcome, whatever the outputs held before. -/
def Obligations.StepReadsOnlyTheInputPorts : Prop :=
  ∀ s t : State, SameInputs s t → step s = step t

/-- R20, R56: a step changes no input port. -/
def Obligations.StepLeavesTheInputPortsAlone : Prop :=
  ∀ s t : State, step s = .next t → SameInputs s t

/-- R50: evaluating the same inputs again changes nothing. -/
def Obligations.ReevaluationIsIdempotent : Prop :=
  ∀ s t : State, step s = .next t → step t = .next t

/-- R82: `cont` is driven with the mask of the present width in every evaluation, the invalid selector's too. -/
def Obligations.ContIsDrivenFromTheWidthAlone : Prop :=
  ∀ s : State, ∃ o, outputs (step s) = some o ∧ o.cont = laneMask (LaneWidth.ofCode s.width)

/-- After a ConfigError, a valid selector gives what it would have given had the error never occurred (R166). That the state
the host goes on from is the one before the fault, `s` itself, is the model's reading of R165 and R166, log entry 6
(DEDUCED). -/
def Obligations.ConfigErrorLeavesNoTrace : Prop :=
  ∀ (s s' : State) (ctrl : BitVec 5), s.op = 0b111#3 → s'.op ≠ 0b111#3 →
    s.op1 = s'.op1 → s.op2 = s'.op2 → ctrl.extractLsb' 2 3 ≠ 0b111#3 →
    (∃ e, step s = .fault (.configError e)) ∧
    ∃ t, step (s.presentControl ctrl) = .next t ∧ step (s'.presentControl ctrl) = .next t ∧ t.cfgErr = 0#1

/-! ## Words, slices and lanes (20_memory.md) -/

/-- R43: a Word is its 32 slices, slice 0 least significant. -/
def Obligations.WordIsTheSumOfItsSlices : Prop :=
  ∀ v : Word, v.toNat = ∑ i ∈ Finset.range 32, (slice v i).toNat * 2 ^ (8 * i)

/-- R44: a lane is its slices, in the same order. -/
def Obligations.LaneIsTheSumOfItsSlices : Prop :=
  ∀ (v : Word) (w : LaneWidth), ∀ j < w.lanes,
    (lane v j w).toNat = ∑ t ∈ Finset.range (w.bits / 8), (slice v (w.bits / 8 * j + t)).toNat * 2 ^ (8 * t)

/-- R45: a lane is the concatenation of two adjacent lanes of half its width. -/
def Obligations.WideLaneIsTwoAdjacentLanes : Prop :=
  ∀ (v : Word) (w w' : LaneWidth), w'.bits = 2 * w.bits → ∀ j < w'.lanes,
    (lane v j w').toNat = (lane v (2 * j + 1) w).toNat * 2 ^ w.bits + (lane v (2 * j) w).toNat

/-! ## Lane-mask generator (40_lanemask.md) -/

/-- R80: `cont[i]` is 1 exactly when slice `i` is not the top of its lane. -/
def Obligations.LaneMaskMarksContinuationSlices : Prop :=
  ∀ (w : LaneWidth), ∀ i < 32,
    (laneMask w).getLsbD i = decide (i % (w.bits / 8) ≠ w.bits / 8 - 1)

/-- R81: the four LaneMask values. -/
def Obligations.LaneMaskValues : Prop :=
  laneMask .w8 = 0x00000000#32 ∧ laneMask .w16 = 0x55555555#32 ∧
  laneMask .w32 = 0x77777777#32 ∧ laneMask .w64 = 0x7F7F7F7F#32

/-- R83: the per-slice signals derived from the mask vector, and the slices they hold at. -/
def Obligations.SliceSignalsMarkLaneEnds : Prop :=
  (∀ (cont : BitVec 32), ∀ i < 32,
    (isTop cont i = true ↔ cont.getLsbD i = false) ∧
    (isLaneStart cont i = true ↔ i = 0 ∨ cont.getLsbD (i - 1) = false) ∧
    (isFusedBelow cont i = true ↔ 1 ≤ i ∧ cont.getLsbD (i - 1) = true) ∧
    isFusedBelow cont i = !isLaneStart cont i) ∧
  (∀ (w : LaneWidth), ∀ i < 32,
    (isLaneStart (laneMask w) i = true ↔ i % w.slices = 0) ∧
    (isLaneStart (laneMask w) i = true ↔ i = loSlice (laneOf i w) w) ∧
    (isTop (laneMask w) i = true ↔ i % w.slices = w.slices - 1) ∧
    (isTop (laneMask w) i = true ↔ i = hiSlice (laneOf i w) w))

/-- R85: the corner cases of the mask vector, with the lanes as its maximal runs in (d). -/
def Obligations.LaneMaskCornerCases : Prop :=
  (∀ w : LaneWidth, (laneMask w).getLsbD 31 = false) ∧
  (∀ i < 32, (laneMask .w8).getLsbD i = false) ∧
  (∀ w : LaneWidth, ((List.range 32).filter fun i => !(laneMask w).getLsbD i).length = 256 / w.bits) ∧
  (∀ (w : LaneWidth), ∀ lo < 32, ∀ hi < 32,
    (∃ j < w.lanes, lo = loSlice j w ∧ hi = hiSlice j w) ↔
      (lo ≤ hi ∧ (lo = 0 ∨ (laneMask w).getLsbD (lo - 1) = false) ∧
        (∀ i < 32, lo ≤ i → i < hi → (laneMask w).getLsbD i = true) ∧ (laneMask w).getLsbD hi = false)) ∧
  laneMask (LaneWidth.ofCode 0b10#2) = 0x77777777#32

/-! ## Adder/subtractor (41_addsub.md) -/

/-- R91, R92: there are carries, gated by the mask vector, with which every slice of the result is the low 8 bits of its
slice adder's 9-bit sum. -/
def Obligations.AddSubIsTheGatedSliceChain : Prop :=
  ∀ (a b : Word) (sub : Bool) (w : LaneWidth), ∃ cin cout : Nat → Nat,
    (∀ i < 32, cin i = if i = 0 ∨ (laneMask w).getLsbD (i - 1) = false then sub.toNat else cout (i - 1)) ∧
    (∀ i < 32, cout i ≤ 1 ∧
      (slice a i).toNat + (slice (if sub then ~~~b else b) i).toNat + cin i
        = (slice (addsub a b sub w) i).toNat + 256 * cout i)

/-- R94: the slice chain computes each lane's sum or difference modulo `2^W`. -/
def Obligations.AddSubFollowsTheLaneLaw : Prop :=
  ∀ (a b : Word) (w : LaneWidth), ∀ j < w.lanes,
    (lane (addsub a b false w) j w).toNat = ((lane a j w).toNat + (lane b j w).toNat) % 2 ^ w.bits ∧
    ((lane (addsub a b true w) j w).toNat : Int)
      = (((lane a j w).toNat : Int) - ((lane b j w).toNat : Int)) % 2 ^ w.bits

/-- R95: `ADD.Wn` completes for all operands; every lane of its result, and everything it changes. -/
def Obligations.AddAddsEachLaneModuloItsWidth : Prop :=
  (∀ w : LaneWidth, encode (.add w) = 0b000#3 ++ w.code) ∧
  (∀ (w : LaneWidth) (s : State), ∃ r : Word,
    exec (.add w) s = .next { s with result := r, cont := laneMask w, cfgErr := 0#1 } ∧
    r = addsub s.op1 s.op2 false w ∧
    ∀ j < w.lanes,
      (lane r j w).toNat = ((lane s.op1 j w).toNat + (lane s.op2 j w).toNat) % 2 ^ w.bits) ∧
  addsub (joinLanes .w16 fun _ => 0x00FF#16) (joinLanes .w16 fun _ => 0x0001#16) false .w16
    = joinLanes .w16 fun _ => 0x0100#16

/-- R96: `SUB.Wn` completes for all operands; every lane of its result, and everything it changes. -/
def Obligations.SubSubtractsEachLaneModuloItsWidth : Prop :=
  (∀ w : LaneWidth, encode (.sub w) = 0b001#3 ++ w.code) ∧
  (∀ (w : LaneWidth) (s : State), ∃ r : Word,
    exec (.sub w) s = .next { s with result := r, cont := laneMask w, cfgErr := 0#1 } ∧
    r = addsub s.op1 s.op2 true w ∧
    ∀ j < w.lanes,
      ((lane r j w).toNat : Int)
        = (((lane s.op1 j w).toNat : Int) - ((lane s.op2 j w).toNat : Int)) % 2 ^ w.bits ∧
      ((lane s.op1 j w).toNat < (lane s.op2 j w).toNat →
        (lane r j w).toNat = 2 ^ w.bits + (lane s.op1 j w).toNat - (lane s.op2 j w).toNat)) ∧
  addsub 0#256 (joinLanes .w16 fun _ => 0x0001#16) true .w16 = joinSlices fun _ => 0xFF#8

/-- R97: the corner cases of ADD and SUB, in the rule's order. -/
def Obligations.AddSubCornerCases : Prop :=
  (∀ (a b : Word) (w : LaneWidth), ∀ j < w.lanes, 2 ^ w.bits ≤ (lane a j w).toNat + (lane b j w).toNat →
    (lane (addsub a b false w) j w).toNat = (lane a j w).toNat + (lane b j w).toNat - 2 ^ w.bits) ∧
  addsub (joinSlices fun _ => 0xFF#8) 1#256 false .w8 = joinSlices (fun i => if i = 0 then 0x00#8 else 0xFF#8) ∧
  (∀ (a b : Word) (sub : Bool) (w : LaneWidth), ∀ i < 31, (laneMask w).getLsbD i = true →
    carryIn (laneMask w) a b sub (i + 1) = (chainSum (laneMask w) a b sub i).getLsbD 8) ∧
  addsub (joinLanes .w64 fun _ => 0x00000000FFFFFFFF#64) (joinLanes .w64 fun _ => 0x0000000000000001#64) false .w64
    = (joinLanes .w64 fun _ => 0x0000000100000000#64) ∧
  (∀ (a b : Word) (w : LaneWidth), ∀ j < w.lanes,
    lane a j w = BitVec.allOnes w.bits → lane b j w = 1#w.bits → lane (addsub a b false w) j w = 0#w.bits) ∧
  (∀ (a : Word) (w : LaneWidth), addsub a a true w = 0#256) ∧
  (∀ (a : Word) (w : LaneWidth), addsub a 0#256 true w = a) ∧
  (∀ (a : Word) (w : LaneWidth), ∀ j < w.lanes,
    (lane (addsub a a false w) j w).toNat = 2 * (lane a j w).toNat % 2 ^ w.bits ∧
    lane (addsub a a false w) j w = lane a j w <<< 1) ∧
  (∀ (a b : Word) (sub : Bool), ∀ i < 32, carryIn (laneMask .w8) a b sub i = sub) ∧
  (∀ (a b : Word) (w : LaneWidth), addsub (addsub a b true w) b false w = a)

/-- R155: adding back what was subtracted gives the minuend, for the instructions themselves: the result of `SUB.Wn`
presented as the first operand of `ADD.Wn`. -/
def Obligations.AddUndoesSub : Prop :=
  ∀ (w : LaneWidth) (s : State), ∃ d r : State,
    exec (.sub w) s = .next d ∧ exec (.add w) (d.presentOperands d.result s.op2) = .next r ∧ r.result = s.op1

/-! ## Comparator (42_compare.md) -/

/-- R111: the most significant slice that differs decides a lane's sign; with none, it is EQ; and the fold written as upward
propagation gated by the mask vector gives the same sign. -/
def Obligations.TopDifferingSliceDecidesTheLane : Prop :=
  ∀ (a b : Word) (w : LaneWidth), ∀ j < w.lanes,
    (∀ t < w.slices,
      (∀ u < w.slices, t < u → slice a (loSlice j w + u) = slice b (loSlice j w + u)) →
      slice a (loSlice j w + t) ≠ slice b (loSlice j w + t) →
      laneSign a b w j =
        if (slice b (loSlice j w + t)).toNat < (slice a (loSlice j w + t)).toNat then .gt else .lt) ∧
    ((∀ t < w.slices, slice a (loSlice j w + t) = slice b (loSlice j w + t)) → laneSign a b w j = .eq) ∧
    laneSign a b w j = signChain (laneMask w) a b (hiSlice j w)

/-- R112: a lane's sign is the unsigned comparison of the lanes as numbers. -/
def Obligations.LaneSignIsTheUnsignedComparison : Prop :=
  ∀ (a b : Word) (w : LaneWidth), ∀ j < w.lanes,
    (laneSign a b w j = .gt ↔ (lane a j w).toNat > (lane b j w).toNat) ∧
    (laneSign a b w j = .lt ↔ (lane a j w).toNat < (lane b j w).toNat) ∧
    (laneSign a b w j = .eq ↔ lane a j w = lane b j w)

/-- R113: the truth value is broadcast: a true lane is all ones, a false lane 0, slice by slice too. -/
def Obligations.PredicateIsBroadcastOverItsLane : Prop :=
  ∀ (a b : Word) (w : LaneWidth) (want : Sign), ∀ j < w.lanes,
    (laneSign a b w j = want → (lane (compareLanes a b w want) j w).toNat = 2 ^ w.bits - 1 ∧
      ∀ t < w.slices, slice (compareLanes a b w want) (loSlice j w + t) = 0xFF#8) ∧
    (laneSign a b w j ≠ want → (lane (compareLanes a b w want) j w).toNat = 0 ∧
      ∀ t < w.slices, slice (compareLanes a b w want) (loSlice j w + t) = 0x00#8)

/-- R114: `EQ.Wn` completes for all operands; every lane of its result, and everything it changes. -/
def Obligations.EqMarksTheEqualLanes : Prop :=
  (∀ w : LaneWidth, encode (.eq w) = 0b010#3 ++ w.code) ∧
  (∀ (w : LaneWidth) (s : State), ∃ r : Word,
    exec (.eq w) s = .next { s with result := r, cont := laneMask w, cfgErr := 0#1 } ∧
    ∀ j < w.lanes,
      lane r j w = (if laneSign s.op1 s.op2 w j = .eq then BitVec.allOnes w.bits else 0#w.bits) ∧
      lane r j w = (if lane s.op1 j w = lane s.op2 j w then BitVec.allOnes w.bits else 0#w.bits) ∧
      (lane r j w = BitVec.allOnes w.bits ↔
        ∀ t < w.slices, slice s.op1 (loSlice j w + t) = slice s.op2 (loSlice j w + t))) ∧
  compareLanes (joinLanes .w32 fun _ => 0x00FFFFFF#32) (joinLanes .w32 fun _ => 0x00FFFFFF#32) .w32 .eq
    = joinSlices fun _ => 0xFF#8

/-- R115: `GT.Wn` completes for all operands; every lane of its result, and everything it changes. -/
def Obligations.GtMarksTheGreaterLanes : Prop :=
  (∀ w : LaneWidth, encode (.gt w) = 0b011#3 ++ w.code) ∧
  (∀ (w : LaneWidth) (s : State), ∃ r : Word,
    exec (.gt w) s = .next { s with result := r, cont := laneMask w, cfgErr := 0#1 } ∧
    ∀ j < w.lanes,
      lane r j w = (if laneSign s.op1 s.op2 w j = .gt then BitVec.allOnes w.bits else 0#w.bits) ∧
      lane r j w =
        (if (lane s.op1 j w).toNat > (lane s.op2 j w).toNat then BitVec.allOnes w.bits else 0#w.bits)) ∧
  compareLanes (joinLanes .w16 fun _ => 0x0100#16) (joinLanes .w16 fun _ => 0x00FF#16) .w16 .gt
    = joinLanes .w16 fun _ => 0xFFFF#16

/-- R116: `LT.Wn` completes for all operands; every lane of its result, and everything it changes. -/
def Obligations.LtMarksTheLesserLanes : Prop :=
  (∀ w : LaneWidth, encode (.lt w) = 0b100#3 ++ w.code) ∧
  (∀ (w : LaneWidth) (s : State), ∃ r : Word,
    exec (.lt w) s = .next { s with result := r, cont := laneMask w, cfgErr := 0#1 } ∧
    ∀ j < w.lanes,
      lane r j w = (if laneSign s.op1 s.op2 w j = .lt then BitVec.allOnes w.bits else 0#w.bits) ∧
      lane r j w =
        (if (lane s.op1 j w).toNat < (lane s.op2 j w).toNat then BitVec.allOnes w.bits else 0#w.bits)) ∧
  compareLanes (joinLanes .w16 fun _ => 0x00FF#16) (joinLanes .w16 fun _ => 0x0100#16) .w16 .lt
    = (joinLanes .w16 fun _ => 0xFFFF#16) ∧
  compareLanes (joinLanes .w16 fun _ => 0x00FF#16) (joinLanes .w16 fun _ => 0x0100#16) .w8 .lt
    = joinLanes .w16 fun _ => 0xFF00#16

/-- R117: the corner cases of EQ, GT and LT, in the rule's order. -/
def Obligations.CompareCornerCases : Prop :=
  (∀ (a b : Word) (w : LaneWidth), ∀ j < w.lanes, lane a j w = lane b j w →
    lane (compareLanes a b w .eq) j w = BitVec.allOnes w.bits ∧
    lane (compareLanes a b w .gt) j w = 0#w.bits ∧ lane (compareLanes a b w .lt) j w = 0#w.bits) ∧
  (∀ (a b : Word) (w : LaneWidth), ∀ j < w.lanes,
    ∃! want : Sign, lane (compareLanes a b w want) j w = BitVec.allOnes w.bits) ∧
  (∀ (a : Word) (w : LaneWidth), compareLanes a a w .eq = BitVec.allOnes 256 ∧
    compareLanes a a w .gt = 0#256 ∧ compareLanes a a w .lt = 0#256) ∧
  (∀ (a b : Word) (w : LaneWidth), ∀ j < w.lanes, (lane a j w).msb = true → (lane b j w).msb = false →
    lane (compareLanes a b w .gt) j w = BitVec.allOnes w.bits) ∧
  (∀ (a b : Word) (w : LaneWidth), ∀ j < w.lanes, ∀ t < w.slices,
    (∀ u < w.slices, t < u → slice a (loSlice j w + u) = slice b (loSlice j w + u)) →
    (slice b (loSlice j w + t)).toNat < (slice a (loSlice j w + t)).toNat →
    lane (compareLanes a b w .gt) j w = BitVec.allOnes w.bits) ∧
  compareLanes (joinLanes .w32 fun _ => 0x01000000#32) (joinLanes .w32 fun _ => 0x00FFFFFF#32) .w32 .gt
    = BitVec.allOnes 256 ∧
  compareLanes (joinLanes .w16 fun _ => 0x0100#16) (joinLanes .w16 fun _ => 0x00FF#16) .w8 .gt
    ≠ compareLanes (joinLanes .w16 fun _ => 0x0100#16) (joinLanes .w16 fun _ => 0x00FF#16) .w16 .gt ∧
  (∀ w : LaneWidth, compareLanes (BitVec.allOnes 256) 0#256 w .gt = BitVec.allOnes 256 ∧
    compareLanes 0#256 (BitVec.allOnes 256) w .lt = BitVec.allOnes 256) ∧
  (∀ (a : Word) (w : LaneWidth), compareLanes a 0#256 w .lt = 0#256) ∧
  (∀ (a b : Word) (w : LaneWidth) (want : Sign), ∀ j < w.lanes,
    lane (compareLanes a b w want) j w = 0#w.bits ∨
      lane (compareLanes a b w want) j w = BitVec.allOnes w.bits)

/-- R156: `EQ.Wn a, a` is all ones at every width. -/
def Obligations.EqIsReflexive : Prop :=
  ∀ (w : LaneWidth) (s : State), s.op1 = s.op2 →
    ∃ t, exec (.eq w) s = .next t ∧ t.result = BitVec.allOnes 256

/-- R157: in every lane exactly one of the three comparisons is true, and the three masks are disjoint and cover the Word. -/
def Obligations.ComparisonsAreTrichotomous : Prop :=
  ∀ (w : LaneWidth) (s : State), ∃ e g l : State,
    exec (.eq w) s = .next e ∧ exec (.gt w) s = .next g ∧ exec (.lt w) s = .next l ∧
    (∀ j < w.lanes,
      (lane e.result j w = BitVec.allOnes w.bits ∧ lane g.result j w = 0#w.bits ∧ lane l.result j w = 0#w.bits) ∨
      (lane e.result j w = 0#w.bits ∧ lane g.result j w = BitVec.allOnes w.bits ∧ lane l.result j w = 0#w.bits) ∨
      (lane e.result j w = 0#w.bits ∧ lane g.result j w = 0#w.bits ∧ lane l.result j w = BitVec.allOnes w.bits)) ∧
    e.result &&& g.result = 0#256 ∧ e.result &&& l.result = 0#256 ∧ g.result &&& l.result = 0#256 ∧
    e.result ||| g.result ||| l.result = BitVec.allOnes 256

/-! ## Shifter (43_shift.md) -/

/-- R132: `SHL.Wn` completes for all operands; every lane of its result, and everything it changes. -/
def Obligations.ShlShiftsEachLaneLeft : Prop :=
  (∀ w : LaneWidth, encode (.shl w) = 0b101#3 ++ w.code) ∧
  (∀ (w : LaneWidth) (s : State), ∃ r : Word,
    exec (.shl w) s = .next { s with result := r, cont := laneMask w, cfgErr := 0#1 } ∧
    ∀ j < w.lanes,
      (lane r j w).toNat =
        if (lane s.op2 j w).toNat ≥ w.bits then 0
        else (lane s.op1 j w).toNat * 2 ^ (lane s.op2 j w).toNat % 2 ^ w.bits) ∧
  shiftLanes (joinLanes .w8 fun _ => 0x81#8) (joinLanes .w8 fun _ => 0x01#8) .w8 .left
    = (joinLanes .w8 fun _ => 0x02#8) ∧
  shiftLanes (joinLanes .w8 fun _ => 0x81#8) (joinLanes .w8 fun _ => 0x08#8) .w8 .left = 0#256

/-- R133: `SHR.Wn` completes for all operands; every lane of its result, and everything it changes. -/
def Obligations.ShrShiftsEachLaneRight : Prop :=
  (∀ w : LaneWidth, encode (.shr w) = 0b110#3 ++ w.code) ∧
  (∀ (w : LaneWidth) (s : State), ∃ r : Word,
    exec (.shr w) s = .next { s with result := r, cont := laneMask w, cfgErr := 0#1 } ∧
    ∀ j < w.lanes,
      (lane r j w).toNat =
        if (lane s.op2 j w).toNat ≥ w.bits then 0
        else (lane s.op1 j w).toNat / 2 ^ (lane s.op2 j w).toNat) ∧
  shiftLanes (joinLanes .w16 fun _ => 0x8001#16) (joinLanes .w16 fun _ => 0x000F#16) .w16 .right
    = (joinLanes .w16 fun _ => 0x0001#16) ∧
  shiftLanes (joinLanes .w16 fun _ => 0x8001#16) (joinLanes .w16 fun _ => 0x0010#16) .w16 .right = 0#256

/-- R158: for SHL and SHR alike, an amount of the lane width or more gives a zero lane. -/
def Obligations.OverShiftGivesAZeroLane : Prop :=
  ∀ (w : LaneWidth) (s : State), ∃ l r : State,
    exec (.shl w) s = .next l ∧ exec (.shr w) s = .next r ∧
    ∀ j < w.lanes, w.bits ≤ (lane s.op2 j w).toNat →
      lane l.result j w = 0#w.bits ∧ lane r.result j w = 0#w.bits

/-- R134: reversing the Word, shifting left by the mirrored amounts and reversing again is the right shift; without the
mirroring it is not. -/
def Obligations.RightShiftIsTheReversedLeftShift : Prop :=
  (∀ (v : Word), ∀ k < 256, (rev v).getLsbD k = v.getLsbD (255 - k)) ∧
  (∀ (b : Word) (w : LaneWidth), ∀ j < w.lanes, lane (mirror b w) (w.lanes - 1 - j) w = lane b j w) ∧
  (∀ (a b : Word) (w : LaneWidth),
    shiftLanes a b w .right = rev (shiftLanes (rev a) (mirror b w) w .left)) ∧
  (∀ (v : Word) (w : LaneWidth), ∀ j < w.lanes, ∀ m < w.bits,
    (lane (rev v) (w.lanes - 1 - j) w).getLsbD m = (lane v j w).getLsbD (w.bits - 1 - m)) ∧
  (∃ (a b : Word) (w : LaneWidth), shiftLanes a b w .right ≠ rev (shiftLanes (rev a) b w .left))

/-- R135: the corner cases of SHL and SHR, in the rule's order. -/
def Obligations.ShiftCornerCases : Prop :=
  (∀ (a b : Word) (w : LaneWidth) (d : Direction), ∀ j < w.lanes, (lane b j w).toNat = 0 →
    lane (shiftLanes a b w d) j w = lane a j w) ∧
  (∀ (a b : Word) (w : LaneWidth), ∀ j < w.lanes, (lane b j w).toNat = w.bits - 1 →
    (lane (shiftLanes a b w .left) j w).toNat = ((lane a j w).getLsbD 0).toNat * 2 ^ (w.bits - 1) ∧
    (lane (shiftLanes a b w .right) j w).toNat = ((lane a j w).getLsbD (w.bits - 1)).toNat) ∧
  (∀ (a b : Word) (w : LaneWidth) (d : Direction), ∀ j < w.lanes, w.bits ≤ (lane b j w).toNat →
    lane (shiftLanes a b w d) j w = 0#w.bits) ∧
  (∀ (a : Word) (d : Direction), shiftLanes a (joinLanes .w16 fun _ => 0x0100#16) .w16 d = 0#256) ∧
  shiftLanes (joinSlices fun _ => 0x01#8) (joinSlices fun i => BitVec.ofNat 8 i) .w8 .left
    = joinSlices (fun i => if i < 8 then BitVec.ofNat 8 (2 ^ i) else 0x00#8) ∧
  (∀ (a : Word) (w : LaneWidth) (d : Direction), ∀ j < w.lanes, w.bits ≤ (lane a j w).toNat →
    lane (shiftLanes a a w d) j w = 0#w.bits) ∧
  (∀ (a b : Word) (w : LaneWidth), ∀ j < w.lanes, (lane b j w).toNat < w.bits → ∀ m < w.bits,
    (lane (shiftLanes a b w .left) j w).getLsbD m =
      (decide ((lane b j w).toNat ≤ m) && (lane a j w).getLsbD (m - (lane b j w).toNat)) ∧
    (lane (shiftLanes a b w .right) j w).getLsbD m =
      (decide (m + (lane b j w).toNat < w.bits) && (lane a j w).getLsbD (m + (lane b j w).toNat))) ∧
  (∀ (a b : Word) (w : LaneWidth) (d : Direction), ∀ j < w.lanes, lane a j w = 0#w.bits →
    lane (shiftLanes a b w d) j w = 0#w.bits)

/-! ## Whole-machine rules (44_evaluate.md) -/

/-- R154: changing only lane `k` of the operands changes no other lane of the result, for every instruction. -/
def Obligations.LanesAreIsolated : Prop :=
  ∀ (i : Instr) (s s' : State) (k : Nat),
    (∀ j < i.width.lanes, j ≠ k →
      lane s.op1 j i.width = lane s'.op1 j i.width ∧ lane s.op2 j i.width = lane s'.op2 j i.width) →
    ∃ t t', exec i s = .next t ∧ exec i s' = .next t' ∧
      ∀ j < i.width.lanes, j ≠ k → lane t.result j i.width = lane t'.result j i.width

/-- The outputs stay those of the present inputs, by the lane laws in plain number arithmetic (`Safety.laneValue`). -/
def Obligations.EveryStepKeepsTheOutputsSettled : Prop :=
  ∀ s t : State, Settled s → step s = .next t → Settled t

/-- R181: from any state at all, with a valid selector, one step settles the outputs. -/
def Obligations.OneStepSettlesTheOutputs : Prop :=
  ∀ s : State, ValidSelector s → ∃ t, step s = .next t ∧ SameInputs s t ∧ Settled t

/-- A settled state is a fixed point of the step: the lane laws, `cont` and `cfg_err` leave no output bit free. -/
def Obligations.SettledStateIsAFixedPoint : Prop :=
  ∀ s : State, Settled s → step s = .next s

/-- The reset outputs, the model's choice of log entry 3, are settled. -/
def Obligations.ResetIsSettled : Prop := Settled State.reset

/-- The reset inputs are the model's choice of log entry 2: 0 on every port. -/
def Obligations.ResetPresentsZeroInputs : Prop :=
  State.reset.op1 = 0#256 ∧ State.reset.op2 = 0#256 ∧ State.reset.width = 0b00#2 ∧ State.reset.op = 0b000#3 ∧
  step State.reset = .next State.reset
end

