-- ==== Sys2Proof/Laws/Operands.lean ====
section
/-! SUPPORT. Slices and lanes of a Word: what a concatenation holds, and when two Words are equal. -/

namespace Sys2Proof

theorem LaneWidth.lanes_mul_bits (w : LaneWidth) : w.lanes * w.bits = 256 := by cases w <;> rfl

theorem LaneWidth.slices_mul_eight (w : LaneWidth) : w.slices * 8 = w.bits := by cases w <;> rfl

theorem LaneWidth.bits_pos (w : LaneWidth) : 0 < w.bits := by cases w <;> decide

theorem LaneWidth.slices_pos (w : LaneWidth) : 0 < w.slices := by cases w <;> decide

@[simp] theorem LaneWidth.ofCode_code (w : LaneWidth) : LaneWidth.ofCode w.code = w := by
  cases w <;> rfl

namespace Machine

theorem slice_toNat (v : Word) (i : Nat) : (slice v i).toNat = v.toNat / 2 ^ (8 * i) % 2 ^ 8 := by
  simp only [slice, BitVec.extractLsb'_toNat, Nat.shiftRight_eq_div_pow]

theorem lane_toNat (v : Word) (j : Nat) (w : LaneWidth) :
    (lane v j w).toNat = v.toNat / 2 ^ (w.bits * j) % 2 ^ w.bits := by
  simp only [lane, BitVec.extractLsb'_toNat, Nat.shiftRight_eq_div_pow]

theorem concatNat_lt (n : Nat) (f : Nat → BitVec n) (k : Nat) : concatNat n f k < 2 ^ (n * k) := by
  induction k with
  | zero => simp [concatNat]
  | succ k ih =>
    have h := Nat.mul_le_mul_left (2 ^ (n * k)) (Nat.succ_le_of_lt (f k).isLt)
    rw [Nat.mul_succ, ← Nat.pow_add] at h
    rw [concatNat, Nat.mul_succ]
    omega

/-- Piece `j` of a concatenation is `f j`. -/
theorem concatNat_piece (n : Nat) (f : Nat → BitVec n) {j k : Nat} (h : j < k) :
    concatNat n f k / 2 ^ (n * j) % 2 ^ n = (f j).toNat := by
  induction k with
  | zero => omega
  | succ k ih =>
    rcases Nat.lt_succ_iff_lt_or_eq.mp h with h | rfl
    · obtain ⟨d, hd⟩ : ∃ d, k = j + 1 + d := ⟨k - (j + 1), by omega⟩
      have e : 2 ^ (n * k) * (f k).toNat = 2 ^ (n * j) * (2 ^ n * ((f k).toNat * 2 ^ (n * d))) := by
        rw [hd, show n * (j + 1 + d) = n * j + n + n * d by ring, Nat.pow_add, Nat.pow_add]; ring
      rw [concatNat, e, Nat.add_mul_div_left _ _ (Nat.two_pow_pos _), Nat.add_mul_mod_self_left, ih h]
    · rw [concatNat, Nat.add_mul_div_left _ _ (Nat.two_pow_pos _),
        Nat.div_eq_of_lt (concatNat_lt n f j), Nat.zero_add, Nat.mod_eq_of_lt (f j).isLt]

/-- A Word built from slices holds them. -/
theorem slice_joinSlices (f : Nat → Slice) {i : Nat} (h : i < 32) : slice (joinSlices f) i = f i := by
  apply BitVec.eq_of_toNat_eq
  rw [slice_toNat, joinSlices, BitVec.toNat_ofNat, Nat.mod_eq_of_lt (concatNat_lt 8 f 32),
    concatNat_piece 8 f h]

/-- A Word built from lanes holds them (00_scope.md R15). -/
theorem lane_joinLanes (w : LaneWidth) (f : Nat → BitVec w.bits) {j : Nat} (h : j < w.lanes) :
    lane (joinLanes w f) j w = f j := by
  apply BitVec.eq_of_toNat_eq
  have e : 2 ^ 256 = 2 ^ (w.bits * w.lanes) := by rw [Nat.mul_comm, w.lanes_mul_bits]
  rw [lane_toNat, joinLanes, BitVec.toNat_ofNat, e, Nat.mod_eq_of_lt (concatNat_lt _ f _),
    concatNat_piece _ f h]

/-- Bit `k` of a Word is bit `k mod W` of lane `k div W`. -/
theorem getLsbD_eq_lane (v : Word) (w : LaneWidth) (k : Nat) :
    v.getLsbD k = (lane v (k / w.bits) w).getLsbD (k % w.bits) := by
  rw [lane, BitVec.getLsbD_extractLsb', Nat.div_add_mod]
  simp [Nat.mod_lt _ w.bits_pos]

/-- Two Words with the same lanes are equal. -/
theorem word_ext_lanes (w : LaneWidth) {u v : Word} (h : ∀ j < w.lanes, lane u j w = lane v j w) :
    u = v := by
  apply BitVec.eq_of_getLsbD_eq
  intro k hk
  rw [getLsbD_eq_lane u w, getLsbD_eq_lane v w, h]
  exact Nat.div_lt_of_lt_mul (by rw [Nat.mul_comm, w.lanes_mul_bits]; exact hk)

/-- Slices are lanes of width 8. -/
theorem lane_w8 (v : Word) (j : Nat) : lane v j .w8 = slice v j := rfl

/-- Two Words with the same slices are equal. -/
theorem word_ext_slices {u v : Word} (h : ∀ i < 32, slice u i = slice v i) : u = v :=
  word_ext_lanes .w8 h

/-- Slice `t` of lane `j` is slice `lo(j, W) + t` of the Word (20_memory.md R44). -/
theorem slice_of_lane (v : Word) (w : LaneWidth) (j : Nat) {t : Nat} (h : t < w.slices) :
    (lane v j w).extractLsb' (8 * t) 8 = slice v (loSlice j w + t) := by
  apply BitVec.eq_of_getLsbD_eq
  intro k hk
  have e := w.slices_mul_eight
  have hlt : 8 * t + k < w.bits := by omega
  simp only [lane, slice, loSlice, BitVec.getLsbD_extractLsb', hk, hlt, decide_true, Bool.true_and]
  congr 1
  rw [← e]; ring

/-- The number in the `n` slices of a Word from slice `lo` up: what a datapath has seen after `n` slices of a lane. -/
def slicesNat (v : Word) (lo n : Nat) : Nat := v.toNat / 2 ^ (8 * lo) % 2 ^ (8 * n)

theorem slicesNat_zero (v : Word) (lo : Nat) : slicesNat v lo 0 = 0 := by simp [slicesNat, Nat.mod_one]

/-- One more slice enters at the top. -/
theorem slicesNat_succ (v : Word) (lo n : Nat) :
    slicesNat v lo (n + 1) = slicesNat v lo n + 2 ^ (8 * n) * (slice v (lo + n)).toNat := by
  rw [slicesNat, slicesNat, slice_toNat, Nat.mul_succ, Nat.pow_add, Nat.mod_mul, Nat.div_div_eq_div_mul,
    ← Nat.pow_add, ← Nat.mul_add]

theorem slicesNat_lt (v : Word) (lo n : Nat) : slicesNat v lo n < 2 ^ (8 * n) :=
  Nat.mod_lt _ (Nat.two_pow_pos _)

/-- A lane is its `K` slices. -/
theorem lane_eq_slicesNat (v : Word) (w : LaneWidth) (j : Nat) :
    (lane v j w).toNat = slicesNat v (loSlice j w) w.slices := by
  rw [lane_toNat, slicesNat, loSlice, ← w.slices_mul_eight, Nat.mul_comm 8 (_ * j), Nat.mul_comm w.slices 8]
  ring_nf

/-- The slices of a lane are slices of the Word. -/
theorem loSlice_add_lt (w : LaneWidth) {j t : Nat} (hj : j < w.lanes) (ht : t < w.slices) :
    loSlice j w + t < 32 := by
  cases w <;> simp [LaneWidth.lanes, LaneWidth.slices, LaneWidth.bits, loSlice] at * <;> omega

end Machine

end Sys2Proof
end

