-- ==== Sys2Proof/Laws/Datapaths.lean ====
section
/-! SUPPORT. One lemma per datapath: what its result holds, in the slices or lanes it is built from. -/

namespace Sys2Proof.Machine

/-- The LaneMask vector holds `contBit` (40_lanemask.md R80). -/
theorem laneMask_getLsbD (w : LaneWidth) {i : Nat} (h : i < 32) :
    (laneMask w).getLsbD i = contBit w i := by
  revert i
  cases w <;> decide

/-- In lane `j`, the slices below the top one are the continuation slices. -/
theorem laneMask_of_lane (w : LaneWidth) {j t : Nat} (hj : j < w.lanes) (ht : t < w.slices) :
    (laneMask w).getLsbD (loSlice j w + t) = decide (t + 1 ≠ w.slices) := by
  rw [laneMask_getLsbD w (loSlice_add_lt w hj ht), contBit, loSlice, Nat.mul_add_mod, Nat.mod_eq_of_lt ht]
  congr 1
  simp
  omega

/-- Above a slice that closes a lane, the carry-in is `sub` again (41_addsub.md R91). -/
theorem carryIn_after_top {cont : BitVec 32} {i : Nat} (h : cont.getLsbD i = false) (a b : Word) (sub : Bool) :
    carryIn cont a b sub (i + 1) = sub := by
  simp [carryIn, isLaneStart, h]

/-- Above a continuation slice, the carry-in is its carry-out (41_addsub.md R91). -/
theorem carryIn_after_continuation {cont : BitVec 32} {i : Nat} (h : cont.getLsbD i = true) (a b : Word)
    (sub : Bool) : carryIn cont a b sub (i + 1) = (chainSum cont a b sub i).getLsbD 8 := by
  simp [carryIn, isLaneStart, h, chainSum]

/-- Slice `i` of the adder's result is the low 8 bits of its 9-bit sum (41_addsub.md R92). -/
theorem slice_addsub (a b : Word) (sub : Bool) (w : LaneWidth) {i : Nat} (h : i < 32) :
    slice (addsub a b sub w) i = (chainSum (laneMask w) a (condition b sub) sub i).setWidth 8 :=
  slice_joinSlices _ h

/-- The 9-bit slice sum as a number; it never wraps (41_addsub.md R92: at most 0x1FF). -/
theorem sliceSum_toNat (x y : Slice) (c : Bool) :
    (sliceSum x y c).toNat = x.toNat + y.toNat + c.toNat := by
  have hx := x.isLt
  have hy := y.isLt
  cases c <;>
    simp only [sliceSum, BitVec.toNat_add, BitVec.truncate_eq_setWidth, BitVec.toNat_setWidth,
      BitVec.toNat_ofBool, Bool.toNat_false, Bool.toNat_true] <;> omega

/-- The sign of two slices is the order of their numbers (42_compare.md R110). -/
theorem sliceSign_spec (x y : Slice) :
    (sliceSign x y = .gt ↔ y.toNat < x.toNat) ∧ (sliceSign x y = .lt ↔ x.toNat < y.toNat) ∧
      (sliceSign x y = .eq ↔ x.toNat = y.toNat) := by
  unfold sliceSign
  split
  · simp; omega
  · split
    · simp; omega
    · simp; omega

/-- Lane `j` of the comparator's result is its predicate, broadcast (42_compare.md R113). -/
theorem lane_compareLanes (a b : Word) (w : LaneWidth) (want : Sign) {j : Nat} (h : j < w.lanes) :
    lane (compareLanes a b w want) j w = predicateMask w (decide (laneSign a b w j = want)) :=
  lane_joinLanes w _ h

/-- Lane `j` of the shifter's result is lane `j` of the value, shifted (43_shift.md R130). -/
theorem lane_shiftLanes (a b : Word) (w : LaneWidth) (d : Direction) {j : Nat} (h : j < w.lanes) :
    lane (shiftLanes a b w d) j w = shiftLane w (lane a j w) (lane b j w) d :=
  lane_joinLanes w _ h

/-- Lane `j` of the mirrored amounts is lane `N-1-j` of the amounts (43_shift.md R134). -/
theorem lane_mirror (b : Word) (w : LaneWidth) {j : Nat} (h : j < w.lanes) :
    lane (mirror b w) j w = lane b (w.lanes - 1 - j) w :=
  lane_joinLanes w _ h

end Sys2Proof.Machine
end

