-- ==== Sys2Proof/Laws/PerInstr.lean ====
section
/-! SUPPORT. Facts about each instruction as syntax, one lemma per constructor. -/

namespace Sys2Proof.Laws.ControlWordValue

/-- The control word has the value `4*op + width` (30_encoding.md R63), and its Operation is not the invalid one. -/
def Statement (i : Instr) : Prop :=
  (encode i).toNat = 4 * i.opCode.toNat + i.width.code.toNat ∧ i.opCode ≠ 0b111#3

theorem add (w : LaneWidth) : Statement (.add w) := by cases w <;> exact ⟨rfl, by decide⟩
theorem sub (w : LaneWidth) : Statement (.sub w) := by cases w <;> exact ⟨rfl, by decide⟩
theorem eq (w : LaneWidth) : Statement (.eq w) := by cases w <;> exact ⟨rfl, by decide⟩
theorem gt (w : LaneWidth) : Statement (.gt w) := by cases w <;> exact ⟨rfl, by decide⟩
theorem lt (w : LaneWidth) : Statement (.lt w) := by cases w <;> exact ⟨rfl, by decide⟩
theorem shl (w : LaneWidth) : Statement (.shl w) := by cases w <;> exact ⟨rfl, by decide⟩
theorem shr (w : LaneWidth) : Statement (.shr w) := by cases w <;> exact ⟨rfl, by decide⟩

end Sys2Proof.Laws.ControlWordValue
end

