-- ==== Sys2Proof/Laws/State.lean ====
section
/-! SUPPORT. What each update of State leaves in each field. -/

namespace Sys2Proof.Machine

variable (s : State) (r a b : Word) (w : LaneWidth) (c : BitVec 5)

@[simp] theorem State.drive_op1 : (s.drive r w).op1 = s.op1 := rfl
@[simp] theorem State.drive_op2 : (s.drive r w).op2 = s.op2 := rfl
@[simp] theorem State.drive_width : (s.drive r w).width = s.width := rfl
@[simp] theorem State.drive_op : (s.drive r w).op = s.op := rfl
@[simp] theorem State.drive_result : (s.drive r w).result = r := rfl
@[simp] theorem State.drive_cont : (s.drive r w).cont = laneMask w := rfl
@[simp] theorem State.drive_cfgErr : (s.drive r w).cfgErr = 0#1 := rfl
@[simp] theorem State.drive_controlWord : (s.drive r w).controlWord = s.controlWord := rfl
@[simp] theorem State.drive_fetch : (s.drive r w).fetch = s.fetch := rfl
/-- A second drive forgets the first: no value crosses from one evaluation to the next (10_state.md R27). -/
@[simp] theorem State.drive_drive (r' : Word) (w' : LaneWidth) :
    (s.drive r w).drive r' w' = s.drive r' w' := rfl

@[simp] theorem State.presentControl_op1 : (s.presentControl c).op1 = s.op1 := rfl
@[simp] theorem State.presentControl_op2 : (s.presentControl c).op2 = s.op2 := rfl
@[simp] theorem State.presentControl_width : (s.presentControl c).width = c.extractLsb' 0 2 := rfl
@[simp] theorem State.presentControl_op : (s.presentControl c).op = c.extractLsb' 2 3 := rfl
@[simp] theorem State.presentControl_result : (s.presentControl c).result = s.result := rfl
@[simp] theorem State.presentControl_cont : (s.presentControl c).cont = s.cont := rfl
@[simp] theorem State.presentControl_cfgErr : (s.presentControl c).cfgErr = s.cfgErr := rfl
@[simp] theorem State.presentControl_controlWord : (s.presentControl c).controlWord = c :=
  (by decide : ∀ c : BitVec 5, c.extractLsb' 2 3 ++ c.extractLsb' 0 2 = c) c

@[simp] theorem State.presentOperands_op1 : (s.presentOperands a b).op1 = a := rfl
@[simp] theorem State.presentOperands_op2 : (s.presentOperands a b).op2 = b := rfl
@[simp] theorem State.presentOperands_width : (s.presentOperands a b).width = s.width := rfl
@[simp] theorem State.presentOperands_op : (s.presentOperands a b).op = s.op := rfl
@[simp] theorem State.presentOperands_result : (s.presentOperands a b).result = s.result := rfl
@[simp] theorem State.presentOperands_cont : (s.presentOperands a b).cont = s.cont := rfl
@[simp] theorem State.presentOperands_cfgErr : (s.presentOperands a b).cfgErr = s.cfgErr := rfl

end Sys2Proof.Machine
end

