-- ==== Sys2Proof/Laws/Step.lean ====
section
/-! SUPPORT. What a step can do, said once. -/

namespace Sys2Proof

/-- The Word an instruction drives on `result`. -/
def Machine.valueOf : Instr → Word → Word → Word
  | .add w, a, b => Machine.addsub a b false w
  | .sub w, a, b => Machine.addsub a b true w
  | .eq w, a, b => Machine.compareLanes a b w .eq
  | .gt w, a, b => Machine.compareLanes a b w .gt
  | .lt w, a, b => Machine.compareLanes a b w .lt
  | .shl w, a, b => Machine.shiftLanes a b w .left
  | .shr w, a, b => Machine.shiftLanes a b w .right

namespace Machine

@[simp] theorem outputs_next (t : State) :
    outputs (.next t) = some { result := some t.result, cont := t.cont, cfgErr := t.cfgErr } := rfl

@[simp] theorem outputs_raiseConfigError (s : State) :
    outputs (raiseConfigError s) =
      some { result := none, cont := laneMask (LaneWidth.ofCode s.width), cfgErr := 1#1 } := rfl

/-- Every instruction drives its value and the mask of its lane width, and stops nowhere. -/
theorem exec_eq_drive (i : Instr) (s : State) :
    exec i s = .next (s.drive (valueOf i s.op1 s.op2) i.width) := by
  cases i <;> rfl

/-- A step is the instruction the selectors name, or ConfigError. -/
theorem step_cases (s : State) :
    (∃ i, s.fetch = .ok i ∧ step s = .next (s.drive (valueOf i s.op1 s.op2) i.width)) ∨
      (∃ e, s.fetch = .error e ∧ step s = raiseConfigError s) := by
  unfold step
  cases h : s.fetch with
  | ok i => exact .inl ⟨i, rfl, exec_eq_drive i s⟩
  | error e => exact .inr ⟨e, rfl, rfl⟩

/-- A next state is the old one with the outputs of the instruction that the selectors name. -/
theorem step_next {s t : State} (h : step s = .next t) :
    ∃ i, s.fetch = .ok i ∧ t = s.drive (valueOf i s.op1 s.op2) i.width := by
  obtain ⟨i, hi, hs⟩ | ⟨e, _, hs⟩ := step_cases s
  · exact ⟨i, hi, by rw [hs] at h; exact (Host.Outcome.next.inj h).symm⟩
  · rw [hs] at h; cases h

end Machine

end Sys2Proof
end

