-- ==== Sys2Proof/Tests/Slice0.lean ====
section
/-! SUPPORT. The model's own tests. Expected values are those of 95_test_vectors.md, copied, unless a comment says otherwise. -/

namespace Sys2Proof.Tests

open Sys2Proof.Machine Sys2Proof.Safety

/-! ## Ill-formed selectors, one for each check (30_encoding.md R69) -/

theorem test_operation_seven_is_ill_formed :
    Selectors.wellFormed { op := 7, width := 0 } = false ∧
      decodeSelectors { op := 7, width := 0 } = .error (.invalidOperation 7) := by decide

theorem test_width_four_is_ill_formed :
    Selectors.wellFormed { op := 0, width := 4 } = false ∧
      decodeSelectors { op := 0, width := 4 } = .error (.invalidWidth 4) := by decide

theorem test_last_selectors_are_well_formed :
    Selectors.wellFormed { op := 6, width := 3 } = true ∧ Instr.wellFormed (.shr .w64) = true := by decide

/-! ## Control words, written out from the tables of 30_encoding.md R61 and R62: op, then width -/

theorem test_decode_add : decode 0b000_10#5 = .ok (.add .w32) ∧ encode (.add .w32) = 0b000_10#5 := by decide
theorem test_decode_sub : decode 0b001_01#5 = .ok (.sub .w16) ∧ encode (.sub .w16) = 0b001_01#5 := by decide
theorem test_decode_eq : decode 0b010_11#5 = .ok (.eq .w64) ∧ encode (.eq .w64) = 0b010_11#5 := by decide
theorem test_decode_gt : decode 0b011_00#5 = .ok (.gt .w8) ∧ encode (.gt .w8) = 0b011_00#5 := by decide
theorem test_decode_lt : decode 0b100_01#5 = .ok (.lt .w16) ∧ encode (.lt .w16) = 0b100_01#5 := by decide
theorem test_decode_shl : decode 0b101_10#5 = .ok (.shl .w32) ∧ encode (.shl .w32) = 0b101_10#5 := by decide
theorem test_decode_shr : decode 0b110_11#5 = .ok (.shr .w64) ∧ encode (.shr .w64) = 0b110_11#5 := by decide
theorem test_decode_illegal : decode 0b111_01#5 = .error (.invalidOperation 7) := by decide

/-- The opcode table's rows as the host numbers them: match plus width code, in one byte. -/
theorem test_table_words :
    decodeTableWord 8 0x00 = some (.add .w8) ∧ decodeTableWord 8 0x05 = some (.sub .w16) ∧
      decodeTableWord 8 0x0A = some (.eq .w32) ∧ decodeTableWord 8 0x0F = some (.gt .w64) ∧
      decodeTableWord 8 0x10 = some (.lt .w8) ∧ decodeTableWord 8 0x15 = some (.shl .w16) ∧
      decodeTableWord 8 0x1A = some (.shr .w32) := by decide

/-- The first step after a table word is placed runs it (op1 = op2 = 0: EQ.W32 is true everywhere). -/
theorem test_placed_word_runs :
    outputs (step (State.reset.withFetchWord 8 0x0A)) =
      some { result := some (BitVec.allOnes 256), cont := 0x77777777#32, cfgErr := 0#1 } := by decide +kernel

/-! ## One evaluation of each instruction -/

/-- The outputs of one step on the control word and the operands given. -/
def evaluate (ctrl : BitVec 5) (a b : Word) : Option (Option Word × BitVec 32 × BitVec 1) :=
  (outputs (step ((State.reset.presentControl ctrl).presentOperands a b))).map
    fun o => (o.result, o.cont, o.cfgErr)

/-- Vector S3. -/
theorem test_add_w16_carries_inside_the_lane :
    evaluate 0x01#5
      0x00FF00FF00FF00FF00FF00FF00FF00FF00FF00FF00FF00FF00FF00FF00FF00FF#256
      0x0001000100010001000100010001000100010001000100010001000100010001#256
    = some (some 0x0100010001000100010001000100010001000100010001000100010001000100#256, 0x55555555#32, 0#1) := by
  decide +kernel

/-- Vector A4.W64. -/
theorem test_add_w64_drops_the_top_carry :
    evaluate 0x03#5
      0x8080808080808080808080808080808080808080808080808080808080808080#256
      0x8080808080808080808080808080808080808080808080808080808080808080#256
    = some (some 0x0101010101010100010101010101010001010101010101000101010101010100#256, 0x7F7F7F7F#32, 0#1) := by
  decide +kernel

/-- Vector B3. -/
theorem test_sub_w32_borrows_across_a_slice_join :
    evaluate 0x06#5
      0x0000010000000100000001000000010000000100000001000000010000000100#256
      0x0000000100000001000000010000000100000001000000010000000100000001#256
    = some (some 0x000000FF000000FF000000FF000000FF000000FF000000FF000000FF000000FF#256, 0x77777777#32, 0#1) := by
  decide +kernel

/-- Vector B5. -/
theorem test_sub_w64_arbitrary_operands :
    evaluate 0x07#5
      0x8D116ECE1738F7D93D9C172411E20B8F6B0D549B6F03675A1600A35A099950D8#256
      0x36F675CC81E74EF5E8E25D940ED904759531985D5D9DC9F81818E811892F902B#256
    = some (some 0x561AF9019551A8E454B9B9900309071AD5DBBC3E11659D62FDE7BB488069C0AD#256, 0x7F7F7F7F#32, 0#1) := by
  decide +kernel

/-- Vector S5. -/
theorem test_eq_w32_true_lanes_are_all_ones :
    evaluate 0x0A#5
      0x00FFFFFF00FFFFFF00FFFFFF00FFFFFF00FFFFFF00FFFFFF00FFFFFF00FFFFFF#256
      0x00FFFFFF00FFFFFF00FFFFFF00FFFFFF00FFFFFF00FFFFFF00FFFFFF00FFFFFF#256
    = some (some 0xFFFFFFFFFFFFFFFFFFFFFFFFFFFFFFFFFFFFFFFFFFFFFFFFFFFFFFFFFFFFFFFF#256, 0x77777777#32, 0#1) := by
  decide +kernel

/-- Vector C2. -/
theorem test_eq_w16_one_byte_falsifies_its_lane_only :
    evaluate 0x09#5
      0x0000000000000000000000000000000000000000000000000000000000000000#256
      0x0000000000000000000000000000000000000000000000000000000000000001#256
    = some (some 0xFFFFFFFFFFFFFFFFFFFFFFFFFFFFFFFFFFFFFFFFFFFFFFFFFFFFFFFFFFFF0000#256, 0x55555555#32, 0#1) := by
  decide +kernel

/-- Vector C6.GT. -/
theorem test_gt_w32_marks_the_greater_lanes :
    evaluate 0x0E#5
      0xA170B33839263059F28C105D1FB17C2390C192CFD3AC94AF0F21DDB66CAD4A26#256
      0xA170B338392630D9F28C105C1FB17C236FC192CFD3AC94AF0F21DDBE6CAD4A26#256
    = some (some 0x0000000000000000FFFFFFFF00000000FFFFFFFF000000000000000000000000#256, 0x77777777#32, 0#1) := by
  decide +kernel

/-- Vector C5. -/
theorem test_gt_w8_descending_against_ascending :
    evaluate 0x0C#5
      0x1F1E1D1C1B1A191817161514131211100F0E0D0C0B0A09080706050403020100#256
      0x000102030405060708090A0B0C0D0E0F101112131415161718191A1B1C1D1E1F#256
    = some (some 0xFFFFFFFFFFFFFFFFFFFFFFFFFFFFFFFF00000000000000000000000000000000#256, 0x00000000#32, 0#1) := by
  decide +kernel

/-- Vector C6.LT. -/
theorem test_lt_w32_marks_the_lesser_lanes :
    evaluate 0x12#5
      0xA170B33839263059F28C105D1FB17C2390C192CFD3AC94AF0F21DDB66CAD4A26#256
      0xA170B338392630D9F28C105C1FB17C236FC192CFD3AC94AF0F21DDBE6CAD4A26#256
    = some (some 0x00000000FFFFFFFF00000000000000000000000000000000FFFFFFFF00000000#256, 0x77777777#32, 0#1) := by
  decide +kernel

/-- Vector C1.LT.W8. -/
theorem test_lt_w8_compares_each_byte :
    evaluate 0x10#5
      0x0100010001000100010001000100010001000100010001000100010001000100#256
      0x00FF00FF00FF00FF00FF00FF00FF00FF00FF00FF00FF00FF00FF00FF00FF00FF#256
    = some (some 0x00FF00FF00FF00FF00FF00FF00FF00FF00FF00FF00FF00FF00FF00FF00FF00FF#256, 0x00000000#32, 0#1) := by
  decide +kernel

/-- Vector H5. -/
theorem test_shl_w32_amount_is_the_whole_lane :
    evaluate 0x16#5
      0xFFFFFFFFFFFFFFFFFFFFFFFFFFFFFFFFFFFFFFFFFFFFFFFFFFFFFFFFFFFFFFFF#256
      0x0000001800000008FFFFFFFF00000021000000200000001F0000000000000100#256
    = some (some 0xFF000000FFFFFF0000000000000000000000000080000000FFFFFFFF00000000#256, 0x77777777#32, 0#1) := by
  decide +kernel

/-- Vector H6. -/
theorem test_shl_w64_crosses_slice_joins :
    evaluate 0x17#5
      0x00000000000000FF00000000000000FF00000000000000FF00000000000000FF#256
      0x0000000000000038000000000000003C00000000000000080000000000000004#256
    = some (some 0xFF00000000000000F000000000000000000000000000FF000000000000000FF0#256, 0x7F7F7F7F#32, 0#1) := by
  decide +kernel

/-- Vector H3. -/
theorem test_shr_w16_amounts_around_the_width :
    evaluate 0x19#5
      0x8001800180018001800180018001800180018001800180018001800180018001#256
      0x000100000010000F000100000010000F000100000010000F000100000010000F#256
    = some (some 0x4000800100000001400080010000000140008001000000014000800100000001#256, 0x55555555#32, 0#1) := by
  decide +kernel

/-- Vector H4. -/
theorem test_shr_w64_uses_the_amount_of_its_own_lane :
    evaluate 0x1B#5
      0xFFFFFFFFFFFFFFFFFFFFFFFFFFFFFFFFFFFFFFFFFFFFFFFFFFFFFFFFFFFFFFFF#256
      0x0000000000000040000000000000003F00000000000000010000000000000000#256
    = some (some 0x000000000000000000000000000000017FFFFFFFFFFFFFFFFFFFFFFFFFFFFFFF#256, 0x7F7F7F7F#32, 0#1) := by
  decide +kernel

/-- Vector E2: the illegal word at W16, whatever the operands. -/
theorem test_config_error :
    evaluate 0x1D#5 0xAA#256 0x12#256 = some (none, 0x55555555#32, 1#1) := by decide +kernel

/-- R134: the bit-reversal form on the operands of vector H3. -/
theorem test_reversed_left_shift :
    rev (shiftLanes (rev 0x8001800180018001#256) (mirror 0x000100000010000F#256 .w16) .w16 .left)
      = 0x4000800100000001#256 := by decide +kernel

/-! ## Witnesses: states and operands that meet the hypotheses of the statements

Each is named after its statement; with several clauses, one conjunct for each, at a boundary value. -/

/-- The state of a valid evaluation of `1 + 2` at W8, settled. -/
def settledState : State :=
  { op1 := 1#256, op2 := 2#256, width := 0b00#2, op := 0b000#3, result := 3#256, cont := 0#32, cfgErr := 0#1 }

/-- A state that shows the last valid selector, and outputs of no evaluation. -/
def lastValid : State :=
  { op1 := 0x80#256, op2 := 8#256, width := 0b00#2, op := 0b110#3, result := 0xFF#256, cont := 5#32, cfgErr := 1#1 }

/-- The same with the invalid selector. -/
def invalid : State := { lastValid with op := 0b111#3 }

theorem witness_SelectorsNameAnInstructionOnlyInTheirRanges :
    decodeSelectors { op := 6, width := 3 } = .ok (.shr .w64) ∧
      decodeSelectors { op := 7, width := 3 } = .error (.invalidOperation 7) ∧
      decodeSelectors { op := 6, width := 4 } = .error (.invalidWidth 4) := by decide

theorem witness_StepRunsTheDecodedInstruction :
    decode (lastValid.op ++ lastValid.width) = .ok (.shr .w8) ∧ (Instr.shr .w8).wellFormed = true := by decide

theorem witness_PlacedTableWordIsTheNextInstruction :
    decodeTableWord 8 27 = some (.shr .w64) ∧ decodeTableWord 8 28 = none ∧ decodeTableWord 8 32 = none := by decide

theorem witness_InvalidSelectorAloneRaisesConfigError :
    invalid.op = 0b111#3 ∧ lastValid.op ≠ 0b111#3 := by decide

theorem witness_StepReadsOnlyTheInputPorts :
    SameInputs settledState { settledState with result := 9#256, cfgErr := 1#1 } :=
  ⟨rfl, rfl, rfl, rfl⟩

/-- For StepLeavesTheInputPortsAlone and ReevaluationIsIdempotent. -/
theorem witness_step_answers_next :
    step lastValid = .next { lastValid with result := 0#256, cont := 0#32, cfgErr := 0#1 } := by rfl

theorem witness_ConfigErrorLeavesNoTrace :
    invalid.op = 0b111#3 ∧ lastValid.op ≠ 0b111#3 ∧ invalid.op1 = lastValid.op1 ∧ invalid.op2 = lastValid.op2 ∧
      (0b11011#5).extractLsb' 2 3 ≠ 0b111#3 := by decide

/-- The widest and the narrowest lanes, at their last index: for every statement about lanes. -/
theorem witness_lane_indices : 31 < LaneWidth.w8.lanes ∧ 3 < LaneWidth.w64.lanes := by decide

theorem witness_WideLaneIsTwoAdjacentLanes :
    LaneWidth.w64.bits = 2 * LaneWidth.w32.bits ∧ 3 < LaneWidth.w64.lanes := by decide

theorem witness_AddSubCornerCases :
    2 ^ LaneWidth.w8.bits ≤ (lane 0xFF#256 0 .w8).toNat + (lane 0x01#256 0 .w8).toNat ∧
      (laneMask .w16).getLsbD 30 = true ∧
      lane 0xFF#256 0 .w8 = BitVec.allOnes 8 ∧ lane 0x01#256 0 .w8 = 1#8 := by decide

theorem witness_SubSubtractsEachLaneModuloItsWidth :
    (lane 0#256 0 .w8).toNat < (lane 1#256 0 .w8).toNat := by decide

/-- A slice that decides from the top, one that decides below an equal one, and a lane with none. -/
theorem witness_TopDifferingSliceDecidesTheLane :
    slice 0x0100#256 (loSlice 0 .w16 + 1) ≠ slice 0x00FF#256 (loSlice 0 .w16 + 1) ∧
      (slice 0x0101#256 (loSlice 0 .w16 + 1) = slice 0x0100#256 (loSlice 0 .w16 + 1) ∧
        slice 0x0101#256 (loSlice 0 .w16 + 0) ≠ slice 0x0100#256 (loSlice 0 .w16 + 0)) ∧
      ∀ t < LaneWidth.w16.slices, slice 0x0101#256 (loSlice 0 .w16 + t) = slice 0x0101#256 (loSlice 0 .w16 + t) := by
  decide

theorem witness_PredicateIsBroadcastOverItsLane :
    laneSign 0x0100#256 0x00FF#256 .w16 0 = .gt ∧ laneSign 0x0100#256 0x00FF#256 .w16 1 ≠ .gt := by decide

theorem witness_CompareCornerCases :
    lane 0x80#256 0 .w8 = lane 0x80#256 0 .w8 ∧
      ((lane 0x80#256 0 .w8).msb = true ∧ (lane 0x7F#256 0 .w8).msb = false) ∧
      (slice 0x7F#256 (loSlice 0 .w8 + 0)).toNat < (slice 0x80#256 (loSlice 0 .w8 + 0)).toNat := by decide

theorem witness_EqIsReflexive :
    ({ lastValid with op2 := lastValid.op1 } : State).op1 = ({ lastValid with op2 := lastValid.op1 } : State).op2 := rfl

theorem witness_OverShiftGivesAZeroLane : LaneWidth.w8.bits ≤ (lane lastValid.op2 0 .w8).toNat := by decide

theorem witness_ShiftCornerCases :
    (lane 0x00#256 0 .w8).toNat = 0 ∧ (lane 0x07#256 0 .w8).toNat = LaneWidth.w8.bits - 1 ∧
      LaneWidth.w8.bits ≤ (lane 0x08#256 0 .w8).toNat ∧ (lane 0x07#256 0 .w8).toNat < LaneWidth.w8.bits ∧
      lane 0x00#256 0 .w8 = 0#8 := by decide

/-- Two states whose operands differ in lane 0 alone. -/
theorem witness_LanesAreIsolated :
    (∀ j < LaneWidth.w64.lanes, j ≠ 0 →
      lane settledState.op1 j .w64 = lane lastValid.op1 j .w64 ∧
        lane settledState.op2 j .w64 = lane lastValid.op2 j .w64) ∧
      lane settledState.op1 0 .w64 ≠ lane lastValid.op1 0 .w64 := by decide

/-- For EveryStepKeepsTheOutputsSettled and SettledStateIsAFixedPoint. -/
theorem witness_settled : Settled settledState :=
  ⟨.add .w8, by decide, by decide, by decide, rfl⟩

theorem witness_settled_steps : step settledState = .next settledState := by rfl

theorem witness_OneStepSettlesTheOutputs : ValidSelector lastValid := by unfold ValidSelector; decide

end Sys2Proof.Tests
end

namespace Sys2Proof.Machine

open Sys2Proof.Safety

/-! ## The input ports: what a step reads, and what it leaves alone (10_state.md) -/

/-- Driving the outputs leaves the inputs of the evaluation on their ports (10_state.md R20). -/
theorem sameInputs_drive (s : State) (r : Word) (w : LaneWidth) : SameInputs s (s.drive r w) :=
  ⟨rfl, rfl, rfl, rfl⟩

/-- The selectors are input ports, so equal inputs name the same instruction (20_memory.md R54). -/
theorem fetch_eq_of_sameInputs {s t : State} (h : SameInputs s t) : s.fetch = t.fetch := by
  obtain ⟨_, _, hwidth, hop⟩ := h
  rw [State.fetch, State.fetch, State.controlWord, State.controlWord, hwidth, hop]

/-- Every output port is driven afresh, so what the outputs held before is gone (10_state.md R27). -/
theorem drive_eq_of_sameInputs {s t : State} (h : SameInputs s t) (r : Word) (w : LaneWidth) :
    s.drive r w = t.drive r w := by
  obtain ⟨hop1, hop2, hwidth, hop⟩ := h
  rw [State.drive, State.drive, hop1, hop2, hwidth, hop]

/-- An instruction computes its value and its next state from the input ports alone (44_evaluate.md R150). -/
theorem exec_eq_of_sameInputs (i : Instr) {s t : State} (h : SameInputs s t) : exec i s = exec i t := by
  have hdrive := drive_eq_of_sameInputs h (valueOf i s.op1 s.op2) i.width
  obtain ⟨hop1, hop2, _, _⟩ := h
  rw [exec_eq_drive, exec_eq_drive, hdrive, hop1, hop2]

/-- ConfigError records the selectors and a mask of the width selector, nothing else (60_exceptions.md R160). -/
theorem raiseConfigError_eq_of_sameInputs {s t : State} (h : SameInputs s t) :
    raiseConfigError s = raiseConfigError t := by
  obtain ⟨_, _, hwidth, hop⟩ := h
  rw [raiseConfigError, raiseConfigError, hwidth, hop]

/-- Settles O11, by the two ends of an evaluation: the instruction that both states name, or ConfigError. -/
theorem stepReadsOnlyTheInputPorts : Obligations.StepReadsOnlyTheInputPorts := by
  intro s t h
  rw [step, step, fetch_eq_of_sameInputs h]
  cases t.fetch with
  | ok i => exact exec_eq_of_sameInputs i h
  | error e => exact raiseConfigError_eq_of_sameInputs h

/-- Settles O12: a next state is the old one with its outputs driven. -/
theorem stepLeavesTheInputPortsAlone : Obligations.StepLeavesTheInputPortsAlone := by
  intro s t h
  obtain ⟨i, _, rfl⟩ := step_next h
  exact sameInputs_drive s _ _

/-- The zero inputs of the reset state name ADD.W8, whose outputs on `0 + 0` are the ones it already shows. -/
theorem step_reset : step State.reset = .next State.reset :=
  calc step State.reset
    _ = exec (.add .w8) State.reset := rfl
    _ = .next (State.reset.drive (addsub 0#256 0#256 false .w8) .w8) := exec_eq_drive _ _
    _ = .next State.reset := rfl

/-- Settles O48: each input port of the reset state is 0, and its step is `step_reset`. -/
theorem resetPresentsZeroInputs : Obligations.ResetPresentsZeroInputs :=
  ⟨rfl, rfl, rfl, rfl, step_reset⟩

end Sys2Proof.Machine

namespace Sys2Proof.Machine

open Sys2Proof.Safety

/-! ## Words, slices and lanes (20_memory.md) -/

/-- The number that a run of slices holds has them as its base-256 digits, slice `lo` least significant. -/
theorem slicesNat_eq_sum (v : Word) (lo n : Nat) :
    slicesNat v lo n = ∑ t ∈ Finset.range n, (slice v (lo + t)).toNat * 2 ^ (8 * t) := by
  induction n with
  | zero => rw [slicesNat_zero, Finset.sum_range_zero]
  | succ n ih => rw [slicesNat_succ, Finset.sum_range_succ, ih, Nat.mul_comm (2 ^ (8 * n))]

/-- A Word is the run of all its slices (20_memory.md R43). -/
theorem word_eq_slicesNat (v : Word) : v.toNat = slicesNat v 0 32 := by
  rw [slicesNat, Nat.mul_zero, Nat.pow_zero, Nat.div_one, Nat.mod_eq_of_lt v.isLt]

/-- Settles O16: the sum of the run of slices that is the whole Word. -/
theorem wordIsTheSumOfItsSlices : Obligations.WordIsTheSumOfItsSlices := by
  intro v
  rw [word_eq_slicesNat, slicesNat_eq_sum]
  simp only [Nat.zero_add]

/-- Settles O17: the sum of the run of `K` slices that is the lane. -/
theorem laneIsTheSumOfItsSlices : Obligations.LaneIsTheSumOfItsSlices := by
  intro v w j _
  rw [lane_eq_slicesNat, slicesNat_eq_sum, loSlice]

/-- Settles O18: the low `W` bits of a `2W`-bit chunk are the even lane, and the next `W` the odd one. -/
theorem wideLaneIsTwoAdjacentLanes : Obligations.WideLaneIsTwoAdjacentLanes := by
  intro v w w' hbits j _
  have hlow : w'.bits * j = w.bits * (2 * j) := by rw [hbits]; ring
  have hhigh : w.bits * (2 * j) + w.bits = w.bits * (2 * j + 1) := by ring
  have hsize : w'.bits = w.bits + w.bits := by rw [hbits, Nat.two_mul]
  calc (lane v j w').toNat
    _ = v.toNat / 2 ^ (w.bits * (2 * j)) % (2 ^ w.bits * 2 ^ w.bits) := by
      rw [lane_toNat, hlow, hsize, Nat.pow_add]
    _ = v.toNat / 2 ^ (w.bits * (2 * j)) % 2 ^ w.bits
          + 2 ^ w.bits * (v.toNat / 2 ^ (w.bits * (2 * j + 1)) % 2 ^ w.bits) := by
      rw [Nat.mod_mul, Nat.div_div_eq_div_mul, ← Nat.pow_add, hhigh]
    _ = (lane v (2 * j + 1) w).toNat * 2 ^ w.bits + (lane v (2 * j) w).toNat := by
      rw [lane_toNat, lane_toNat, Nat.add_comm, Nat.mul_comm (2 ^ w.bits)]

/-- Settles O13: a step keeps the inputs, and equal inputs have equal steps. -/
theorem reevaluationIsIdempotent : Obligations.ReevaluationIsIdempotent := by
  intro s t h
  have hinputs : SameInputs s t := stepLeavesTheInputPortsAlone s t h
  rw [← stepReadsOnlyTheInputPorts s t hinputs, h]

end Sys2Proof.Machine

namespace Sys2Proof

/-! ## The LaneWidth selector (30_encoding.md R61) -/

/-- `W = 8 * 2^width` (30_encoding.md R61). -/
theorem LaneWidth.bits_eq (w : LaneWidth) : w.bits = 8 * 2 ^ w.code.toNat := by cases w <;> rfl

/-- Every number below 4 is the code of a lane width. -/
theorem LaneWidth.exists_code_toNat_eq {n : Nat} (h : n < 4) : ∃ w : LaneWidth, w.code.toNat = n := by
  interval_cases n
  · exact ⟨.w8, rfl⟩
  · exact ⟨.w16, rfl⟩
  · exact ⟨.w32, rfl⟩
  · exact ⟨.w64, rfl⟩

/-- Every value of the `width` port is the code of a lane width: no encoding of `width` is illegal. -/
theorem LaneWidth.exists_code_eq (c : BitVec 2) : ∃ w : LaneWidth, w.code = c := by
  obtain ⟨w, hw⟩ := LaneWidth.exists_code_toNat_eq c.isLt
  exact ⟨w, BitVec.eq_of_toNat_eq hw⟩

@[simp] theorem LaneWidth.ofNat?_code (w : LaneWidth) : LaneWidth.ofNat? w.code.toNat = some w := by
  cases w <;> rfl

theorem LaneWidth.ofNat?_eq_none {n : Nat} (h : 4 ≤ n) : LaneWidth.ofNat? n = none := by
  obtain ⟨m, rfl⟩ := Nat.exists_eq_add_of_le' h
  rfl

/-- Settles O1: a code is that of some width `w`, which it then names, and `w` has the dimensions of the table. -/
theorem laneWidthCodesNameTheFourWidths : Obligations.LaneWidthCodesNameTheFourWidths := by
  refine ⟨⟨rfl, rfl, rfl, rfl⟩, fun c => ?_⟩
  obtain ⟨w, rfl⟩ := LaneWidth.exists_code_eq c
  rw [LaneWidth.ofCode_code]
  exact ⟨w.bits_eq, w.lanes_mul_bits, w.slices_mul_eight, rfl⟩

/-! ## Decoding selectors of any size (30_encoding.md R69) -/

/-- Every pair of selectors in the two ranges holds the codes of an instruction (30_encoding.md R62, R66). -/
theorem exists_instr_of_codes {op width : Nat} (hop : op < 7) (hwidth : width < 4) :
    ∃ i : Instr, i.opCode.toNat = op ∧ i.width.code.toNat = width := by
  obtain ⟨w, rfl⟩ := LaneWidth.exists_code_toNat_eq hwidth
  interval_cases op
  · exact ⟨.add w, rfl, rfl⟩
  · exact ⟨.sub w, rfl, rfl⟩
  · exact ⟨.eq w, rfl, rfl⟩
  · exact ⟨.gt w, rfl, rfl⟩
  · exact ⟨.lt w, rfl, rfl⟩
  · exact ⟨.shl w, rfl, rfl⟩
  · exact ⟨.shr w, rfl, rfl⟩

/-- The codes of an instruction decode to it. -/
theorem decodeSelectors_codes (i : Instr) :
    decodeSelectors { op := i.opCode.toNat, width := i.width.code.toNat } = .ok i := by
  cases i <;> simp [decodeSelectors, Instr.opCode]

theorem decodeSelectors_invalidWidth {s : Selectors} (h : 4 ≤ s.width) :
    decodeSelectors s = .error (.invalidWidth s.width) := by
  rw [decodeSelectors, LaneWidth.ofNat?_eq_none h]

theorem decodeSelectors_invalidOperation {s : Selectors} (hop : 7 ≤ s.op) (hwidth : s.width < 4) :
    decodeSelectors s = .error (.invalidOperation s.op) := by
  obtain ⟨op, width⟩ := s
  obtain ⟨n, rfl⟩ := Nat.exists_eq_add_of_le' hop
  obtain ⟨w, rfl⟩ := LaneWidth.exists_code_toNat_eq hwidth
  simp [decodeSelectors]

/-- Outside the two ranges the decoder answers an error (30_encoding.md R69, R161). -/
theorem decodeSelectors_eq_error {s : Selectors} (h : 7 ≤ s.op ∨ 4 ≤ s.width) :
    ∃ e, decodeSelectors s = .error e := by
  obtain hwidth | hwidth := Nat.lt_or_ge s.width 4
  · have hop : 7 ≤ s.op := h.resolve_right (Nat.not_le.mpr hwidth)
    exact ⟨_, decodeSelectors_invalidOperation hop hwidth⟩
  · exact ⟨_, decodeSelectors_invalidWidth hwidth⟩

/-- The decoder answers an instruction exactly on its two codes. From left to right: selectors that decode are in their
ranges, so they are the codes of some instruction, which is then the one decoded. -/
theorem decodeSelectors_eq_ok_iff (s : Selectors) (i : Instr) :
    decodeSelectors s = .ok i ↔ i.opCode.toNat = s.op ∧ i.width.code.toNat = s.width := by
  obtain ⟨op, width⟩ := s
  constructor
  · intro h
    have hrange : op < 7 ∧ width < 4 := by
      by_contra hout
      obtain ⟨e, he⟩ := decodeSelectors_eq_error (s := ⟨op, width⟩) (by dsimp only; omega)
      rw [he] at h
      cases h
    obtain ⟨hop, hwidth⟩ := hrange
    obtain ⟨i', rfl, rfl⟩ := exists_instr_of_codes hop hwidth
    rw [decodeSelectors_codes] at h
    cases h
    exact ⟨rfl, rfl⟩
  · rintro ⟨rfl, rfl⟩
    exact decodeSelectors_codes i

/-- Settles O4: in range the pair is the codes of an instruction, out of range an error. -/
theorem selectorsNameAnInstructionOnlyInTheirRanges :
    Obligations.SelectorsNameAnInstructionOnlyInTheirRanges := by
  refine fun s => ⟨fun hop hwidth => ?_, decodeSelectors_eq_error⟩
  obtain ⟨i, hcodes⟩ := exists_instr_of_codes hop hwidth
  exact ⟨i, (decodeSelectors_eq_ok_iff s i).mpr hcodes, hcodes⟩

/-! ## Control words (30_encoding.md R60, R63) -/

/-- The lemmas of Laws/PerInstr.lean, for every instruction at once. -/
theorem controlWordValue : ∀ i : Instr, Laws.ControlWordValue.Statement i
  | .add w => Laws.ControlWordValue.add w
  | .sub w => Laws.ControlWordValue.sub w
  | .eq w => Laws.ControlWordValue.eq w
  | .gt w => Laws.ControlWordValue.gt w
  | .lt w => Laws.ControlWordValue.lt w
  | .shl w => Laws.ControlWordValue.shl w
  | .shr w => Laws.ControlWordValue.shr w

theorem encode_toNat (i : Instr) : (encode i).toNat = 4 * i.opCode.toNat + i.width.code.toNat :=
  (controlWordValue i).1

/-- The Operation code `111` belongs to no instruction (30_encoding.md R65). -/
theorem Instr.opCode_toNat_lt (i : Instr) : i.opCode.toNat < 7 := by
  have hne := (controlWordValue i).2
  bv_omega

/-- A number decodes to an instruction exactly when it is the value of its control word. -/
theorem decodeNat_eq_ok_iff (n : Nat) (i : Instr) : decodeNat n = .ok i ↔ (encode i).toNat = n := by
  have hwidth : i.width.code.toNat < 4 := i.width.code.isLt
  rw [decodeNat, decodeSelectors_eq_ok_iff, encode_toNat]
  dsimp only
  omega

theorem decode_eq_ok_iff (c : BitVec 5) (i : Instr) : decode c = .ok i ↔ encode i = c := by
  rw [decode, decodeNat_eq_ok_iff, BitVec.toNat_inj]

theorem decode_encode (i : Instr) : decode (encode i) = .ok i := (decode_eq_ok_iff _ i).mpr rfl

/-- The numbers that name an instruction are the 28 below the invalid Operation's. -/
theorem decodeNat_isOk_iff (n : Nat) : (∃ i, decodeNat n = .ok i) ↔ n < 28 := by
  constructor
  · rintro ⟨i, hi⟩
    have hop := i.opCode_toNat_lt
    have hwidth : i.width.code.toNat < 4 := i.width.code.isLt
    rw [decodeNat_eq_ok_iff, encode_toNat] at hi
    omega
  · intro hn
    obtain ⟨i, hop, hwidth⟩ := exists_instr_of_codes (op := n / 4) (width := n % 4) (by omega) (by omega)
    exact ⟨i, (decodeSelectors_eq_ok_iff _ i).mpr ⟨hop, hwidth⟩⟩

/-- Settles O3: the three parts about the decoders above, and the two fields of a concatenation. -/
theorem decodeAndEncodeAgreeOnEveryNumber : Obligations.DecodeAndEncodeAgreeOnEveryNumber :=
  ⟨decodeNat_eq_ok_iff, decode_eq_ok_iff, decodeNat_isOk_iff,
    fun _ => ⟨BitVec.extractLsb'_append_eq_left, BitVec.extractLsb'_append_eq_right⟩⟩

/-- The opcode map gives each control word by its value (30_encoding.md R63). -/
theorem decode_ofNat_codes (i : Instr) :
    decode (BitVec.ofNat 5 (4 * i.opCode.toNat + i.width.code.toNat)) = .ok i := by
  rw [← encode_toNat, BitVec.ofNat_toNat, BitVec.setWidth_eq, decode_encode]

/-- The four words of the invalid Operation have the value `4*7 + width` (30_encoding.md R63). -/
theorem invalidWord_eq_ofNat : ∀ c : BitVec 2, 0b111#3 ++ c = BitVec.ofNat 5 (4 * 7 + c.toNat) := by decide

/-- The four words of the invalid Operation decode to no instruction (30_encoding.md R65). -/
theorem decode_invalidWord (c : BitVec 2) : decode (0b111#3 ++ c) = .error (.invalidOperation 7) := by
  have hc := c.isLt
  have hvalue : (BitVec.ofNat 5 (4 * 7 + c.toNat)).toNat = 4 * 7 + c.toNat := by
    rw [BitVec.toNat_ofNat]; omega
  have hop : (4 * 7 + c.toNat) / 4 = 7 := by omega
  rw [decode, invalidWord_eq_ofNat, hvalue, decodeNat, hop]
  exact decodeSelectors_invalidOperation le_rfl (Nat.mod_lt _ (by decide))

/-- Settles O2: seven rows are the control words of instructions, the eighth the invalid Operation. -/
theorem controlWordsDecodeAsTheOpcodeMap : Obligations.ControlWordsDecodeAsTheOpcodeMap := by
  intro c
  have hinvalid := decode_invalidWord c
  rw [invalidWord_eq_ofNat] at hinvalid
  obtain ⟨w, rfl⟩ := LaneWidth.exists_code_eq c
  rw [LaneWidth.ofCode_code]
  exact ⟨decode_ofNat_codes (.add w), decode_ofNat_codes (.sub w), decode_ofNat_codes (.eq w),
    decode_ofNat_codes (.gt w), decode_ofNat_codes (.lt w), decode_ofNat_codes (.shl w),
    decode_ofNat_codes (.shr w), hinvalid⟩

/-- Settles O5: seven words are encodings, and the eighth is the invalid Operation at W32. -/
theorem sampleControlWordsDecode : Obligations.SampleControlWordsDecode :=
  ⟨decode_encode (.add .w16), decode_encode (.sub .w64), decode_encode (.eq .w32), decode_encode (.gt .w16),
    decode_encode (.lt .w32), decode_encode (.shl .w8), decode_encode (.shr .w64), decode_invalidWord 2#2⟩

theorem decodeTableWord_eq_some_iff (nbits w : Nat) (i : Instr) :
    decodeTableWord nbits w = some i ↔ decodeNat (tableBits nbits w) = .ok i := by
  rw [decodeTableWord]
  cases decodeNat (tableBits nbits w) with
  | ok i' => simp
  | error e => simp

end Sys2Proof

namespace Sys2Proof.Machine

/-! ## The host interface: presenting a table word (30_encoding.md section 4) -/

/-- The control word that presenting the table word `w` puts on the selector ports. -/
def presentedControl (nbits w : Nat) : BitVec 5 :=
  if tableBits nbits w < 32 then BitVec.ofNat 5 (tableBits nbits w)
  else 0b111#3 ++ BitVec.ofNat 2 (tableBits nbits w)

/-- Placing a table word is presenting one control word; what it leaves unchanged is what `presentControl` does. -/
theorem withFetchWord_eq_presentControl (s : State) (nbits w : Nat) :
    s.withFetchWord nbits w = s.presentControl (presentedControl nbits w) := by
  rw [State.withFetchWord, State.presentTableWord, presentedControl, apply_ite s.presentControl]

theorem fetch_presentControl (s : State) (c : BitVec 5) : (s.presentControl c).fetch = decode c := by
  rw [State.fetch, State.presentControl_controlWord]

/-- The presented word names what the table's number names: a number of five bits is its own control word, and a larger
one, like the invalid Operation presented for it, names nothing (log entry 7). -/
theorem decode_presentedControl_eq_ok_iff (nbits w : Nat) (i : Instr) :
    decode (presentedControl nbits w) = .ok i ↔ decodeNat (tableBits nbits w) = .ok i := by
  rw [presentedControl]
  split
  next hfits => rw [decode, BitVec.toNat_ofNat, Nat.mod_eq_of_lt hfits]
  next hlarge =>
    have hnumber : decodeNat (tableBits nbits w) ≠ .ok i := fun h => by
      have := (decodeNat_isOk_iff _).mp ⟨i, h⟩
      omega
    have hword : decode (0b111#3 ++ BitVec.ofNat 2 (tableBits nbits w)) ≠ .ok i := by
      rw [decode_invalidWord]
      exact nofun
    exact iff_of_false hword hnumber

/-- After a table word is placed, the selectors name the instruction of its row. -/
theorem fetch_withFetchWord_eq_ok_iff (s : State) (nbits w : Nat) (i : Instr) :
    (s.withFetchWord nbits w).fetch = .ok i ↔ decodeTableWord nbits w = some i := by
  rw [withFetchWord_eq_presentControl, fetch_presentControl, decode_presentedControl_eq_ok_iff,
    decodeTableWord_eq_some_iff]

theorem step_eq_exec {s : State} {i : Instr} (h : s.fetch = .ok i) : step s = exec i s := by
  rw [step, h]

/-- Settles O7: the frame is that of `presentControl`; the step is the instruction of the row, or ConfigError. -/
theorem placedTableWordIsTheNextInstruction : Obligations.PlacedTableWordIsTheNextInstruction := by
  intro s nbits w
  have hfetch := fetch_withFetchWord_eq_ok_iff s nbits w
  have hplace := withFetchWord_eq_presentControl s nbits w
  refine ⟨by rw [hplace, State.presentControl_op1], by rw [hplace, State.presentControl_op2],
    by rw [hplace, State.presentControl_result], by rw [hplace, State.presentControl_cont],
    by rw [hplace, State.presentControl_cfgErr], fun i hi => step_eq_exec ((hfetch i).mpr hi), fun hnone => ?_⟩
  obtain ⟨i, hi, _⟩ | ⟨_, _, hstep⟩ := step_cases (s.withFetchWord nbits w)
  · rw [hfetch i, hnone] at hi
    cases hi
  · exact ⟨_, hstep⟩

end Sys2Proof.Machine

namespace Sys2Proof.Machine

/-! ## Lane-mask generator (40_lanemask.md) -/

/-- An instruction has the lane width that the `width` port holds (30_encoding.md R60). -/
theorem width_eq_of_fetch {s : State} {i : Instr} (h : s.fetch = .ok i) :
    i.width = LaneWidth.ofCode s.width := by
  have hword : i.opCode ++ i.width.code = s.op ++ s.width := (decode_eq_ok_iff _ i).mp h
  have hcode : i.width.code = s.width := by
    simpa only [BitVec.extractLsb'_append_eq_right] using congrArg (BitVec.extractLsb' 0 2) hword
  rw [← hcode, LaneWidth.ofCode_code]

/-- Settles O14: an instruction drives the mask of its own width, which is the port's, and ConfigError that of
the port. -/
theorem contIsDrivenFromTheWidthAlone : Obligations.ContIsDrivenFromTheWidthAlone := by
  intro s
  obtain ⟨i, hfetch, hstep⟩ | ⟨_, _, hstep⟩ := step_cases s
  · rw [hstep, outputs_next, State.drive_cont, width_eq_of_fetch hfetch]
    exact ⟨_, rfl, rfl⟩
  · rw [hstep, outputs_raiseConfigError]
    exact ⟨_, rfl, rfl⟩

/-- Settles O19: the mask vector holds `contBit`, which is R80's own condition. -/
theorem laneMaskMarksContinuationSlices : Obligations.LaneMaskMarksContinuationSlices :=
  fun w _ hi => laneMask_getLsbD w hi

/-- Settles O20: four closed values. -/
theorem laneMaskValues : Obligations.LaneMaskValues := ⟨rfl, rfl, rfl, rfl⟩

/-- Slice `i` closes a lane when it is the last of its `K` slices (40_lanemask.md R80). -/
theorem laneMask_getLsbD_eq_false_iff (w : LaneWidth) {i : Nat} (hi : i < 32) :
    (laneMask w).getLsbD i = false ↔ i % w.slices = w.slices - 1 := by
  rw [laneMask_getLsbD w hi, contBit, decide_eq_false_iff_not, not_not]

/-! ### The signals derived from a mask vector (40_lanemask.md R83) -/

theorem isTop_iff (cont : BitVec 32) (i : Nat) : isTop cont i = true ↔ cont.getLsbD i = false := by
  rw [isTop, Bool.not_eq_true']

theorem isLaneStart_iff (cont : BitVec 32) (i : Nat) :
    isLaneStart cont i = true ↔ i = 0 ∨ cont.getLsbD (i - 1) = false := by
  cases i with
  | zero => simp [isLaneStart]
  | succ i => simp [isLaneStart]

theorem isFusedBelow_eq_not_isLaneStart (cont : BitVec 32) (i : Nat) :
    isFusedBelow cont i = !isLaneStart cont i := by
  cases i with
  | zero => rfl
  | succ i => rw [isFusedBelow, isLaneStart, Bool.not_not]

theorem isFusedBelow_iff (cont : BitVec 32) (i : Nat) :
    isFusedBelow cont i = true ↔ 1 ≤ i ∧ cont.getLsbD (i - 1) = true := by
  rw [isFusedBelow_eq_not_isLaneStart, Bool.not_eq_true', ← Bool.not_eq_true, isLaneStart_iff, not_or,
    Bool.not_eq_false, Nat.one_le_iff_ne_zero]

theorem isTop_laneMask_iff (w : LaneWidth) {i : Nat} (hi : i < 32) :
    isTop (laneMask w) i = true ↔ i % w.slices = w.slices - 1 := by
  rw [isTop_iff, laneMask_getLsbD_eq_false_iff w hi]

/-- The slice above one that closes a lane is the first of the next lane. -/
theorem isLaneStart_laneMask_iff (w : LaneWidth) {i : Nat} (hi : i < 32) :
    isLaneStart (laneMask w) i = true ↔ i % w.slices = 0 := by
  cases i with
  | zero => simp [isLaneStart]
  | succ i =>
    rw [isLaneStart_iff, Nat.add_sub_cancel, laneMask_getLsbD_eq_false_iff w (Nat.lt_of_succ_lt hi)]
    cases w <;> dsimp only [LaneWidth.slices, LaneWidth.bits] <;> omega

theorem eq_loSlice_iff (w : LaneWidth) (i : Nat) : i = loSlice (laneOf i w) w ↔ i % w.slices = 0 := by
  have hdiv := Nat.div_add_mod i w.slices
  rw [loSlice, laneOf]
  omega

theorem eq_hiSlice_iff (w : LaneWidth) (i : Nat) :
    i = hiSlice (laneOf i w) w ↔ i % w.slices = w.slices - 1 := by
  have hdiv := Nat.div_add_mod i w.slices
  have hpos := w.slices_pos
  rw [hiSlice, laneOf]
  omega

/-- Settles O21: the definitions on any vector, then the ends of a lane by `i mod K`. -/
theorem sliceSignalsMarkLaneEnds : Obligations.SliceSignalsMarkLaneEnds := by
  refine ⟨fun cont i _ => ⟨isTop_iff cont i, isLaneStart_iff cont i, isFusedBelow_iff cont i,
    isFusedBelow_eq_not_isLaneStart cont i⟩, fun w i hi => ?_⟩
  have hstart := isLaneStart_laneMask_iff w hi
  have htop := isTop_laneMask_iff w hi
  exact ⟨hstart, hstart.trans (eq_loSlice_iff w i).symm, htop, htop.trans (eq_hiSlice_iff w i).symm⟩

/-! ### Lanes as runs of slices (40_lanemask.md R85) -/

theorem hiSlice_eq (j : Nat) (w : LaneWidth) : hiSlice j w = loSlice j w + (w.slices - 1) := by
  have hpos := w.slices_pos
  rw [hiSlice, loSlice]
  omega

theorem hiSlice_lt (w : LaneWidth) {j : Nat} (hj : j < w.lanes) : hiSlice j w < 32 := by
  rw [hiSlice_eq]
  exact loSlice_add_lt w hj (Nat.sub_lt w.slices_pos Nat.one_pos)

theorem laneOf_lt (w : LaneWidth) {i : Nat} (hi : i < 32) : laneOf i w < w.lanes := by
  have hslices : w.slices * w.lanes = 32 := by cases w <;> rfl
  exact Nat.div_lt_of_lt_mul (hslices ▸ hi)

/-- The zero bits of the mask are the top slices of the lanes, one for each. -/
theorem filter_laneMask_eq_map_hiSlice (w : LaneWidth) :
    ((List.range 32).filter fun i => !(laneMask w).getLsbD i) = (List.range w.lanes).map (hiSlice · w) := by
  cases w <;> decide

/-- `[lo, hi]` is a maximal run of slices joined by continuation bits: nothing joins `lo` to the slice below it or `hi`
to the slice above it. -/
def IsMaximalRun (cont : BitVec 32) (lo hi : Nat) : Prop :=
  lo ≤ hi ∧ (lo = 0 ∨ cont.getLsbD (lo - 1) = false) ∧
    (∀ i < 32, lo ≤ i → i < hi → cont.getLsbD i = true) ∧ cont.getLsbD hi = false

/-- A lane is a maximal run. -/
theorem isMaximalRun_of_lane (w : LaneWidth) {j : Nat} (hj : j < w.lanes) :
    IsMaximalRun (laneMask w) (loSlice j w) (hiSlice j w) := by
  have hpos := w.slices_pos
  have hlo : loSlice j w < 32 := loSlice_add_lt w hj hpos
  rw [hiSlice_eq]
  refine ⟨Nat.le_add_right _ _, ?_, fun i _ hle hlt => ?_, ?_⟩
  · rw [← isLaneStart_iff, isLaneStart_laneMask_iff w hlo, loSlice, Nat.mul_mod_right]
  · obtain ⟨t, rfl⟩ := Nat.exists_eq_add_of_le hle
    rw [laneMask_of_lane w hj (by omega)]
    exact decide_eq_true (by omega)
  · rw [laneMask_of_lane w hj (by omega)]
    exact decide_eq_false (by omega)

/-- Two maximal runs from one slice end together: the shorter one ends at a zero bit, which would lie inside
the longer. -/
theorem IsMaximalRun.le_of_same_start {cont : BitVec 32} {lo hi hi' : Nat} (hhi : hi < 32)
    (h : IsMaximalRun cont lo hi) (h' : IsMaximalRun cont lo hi') : hi ≤ hi' := by
  obtain ⟨_, _, hjoined, _⟩ := h
  obtain ⟨hle', _, _, hclosed'⟩ := h'
  by_contra hlonger
  have hinside : cont.getLsbD hi' = true := hjoined hi' (by omega) hle' (by omega)
  rw [hclosed'] at hinside
  cases hinside

/-- A maximal run is a lane: it begins at the low slice of one, and that lane is a maximal run too. -/
theorem lane_of_isMaximalRun (w : LaneWidth) {lo hi : Nat} (hlo : lo < 32) (hhi : hi < 32)
    (h : IsMaximalRun (laneMask w) lo hi) : ∃ j < w.lanes, lo = loSlice j w ∧ hi = hiSlice j w := by
  have hj : laneOf lo w < w.lanes := laneOf_lt w hlo
  have hstart : lo = loSlice (laneOf lo w) w := by
    obtain ⟨_, hbelow, _, _⟩ := h
    rwa [eq_loSlice_iff, ← isLaneStart_laneMask_iff w hlo, isLaneStart_iff]
  have hrun := isMaximalRun_of_lane w hj
  rw [← hstart] at hrun
  exact ⟨laneOf lo w, hj, hstart,
    Nat.le_antisymm (h.le_of_same_start hhi hrun) (hrun.le_of_same_start (hiSlice_lt w hj) h)⟩

/-- Settles O22: the runs are the lanes by the two lemmas above; the rest is read off the mask's zero bits. -/
theorem laneMaskCornerCases : Obligations.LaneMaskCornerCases := by
  refine ⟨fun w => ?_, fun i hi => ?_, fun w => ?_,
    fun w lo hlo hi hhi => ⟨?_, lane_of_isMaximalRun w hlo hhi⟩, ?_⟩
  · rw [laneMask_getLsbD_eq_false_iff w (by decide)]
    cases w <;> rfl
  · rw [laneMask_getLsbD_eq_false_iff .w8 hi]
    exact Nat.mod_one i
  · rw [filter_laneMask_eq_map_hiSlice, List.length_map, List.length_range]
  · rintro ⟨j, hj, rfl, rfl⟩
    exact isMaximalRun_of_lane w hj
  · rfl

end Sys2Proof.Machine

namespace Sys2Proof.Machine

/-! ## Adder/subtractor (41_addsub.md) -/

/-! ### The slice chain (41_addsub.md R91, R92) -/

/-- `cout[i]`, bit 8 of the sum of slice `i` (41_addsub.md R92). `b` is the conditioned operand. -/
def carryOut (cont : BitVec 32) (a b : Word) (sub : Bool) (i : Nat) : Bool :=
  (chainSum cont a b sub i).getLsbD 8

/-- The gate of R91 on every slice: `sub` at a lane start, elsewhere the carry-out below. -/
theorem carryIn_eq_ite (cont : BitVec 32) (a b : Word) (sub : Bool) (i : Nat) :
    carryIn cont a b sub i = if isLaneStart cont i then sub else carryOut cont a b sub (i - 1) := by
  cases i with
  | zero => rfl
  | succ i => rfl

theorem carryIn_of_isLaneStart {cont : BitVec 32} {i : Nat} (h : isLaneStart cont i = true) (a b : Word)
    (sub : Bool) : carryIn cont a b sub i = sub := by
  rw [carryIn_eq_ite, if_pos h]

/-- A 9-bit sum is its low 8 bits and its carry, bit 8 (41_addsub.md R92). -/
theorem toNat_eq_low_add_carry (s : BitVec 9) :
    s.toNat = (s.setWidth 8).toNat + 256 * (s.getLsbD 8).toNat := by
  have hlt := s.isLt
  rw [← BitVec.testBit_toNat, Nat.toNat_testBit, BitVec.toNat_setWidth]
  omega

/-- The slice adder in plain numbers: what it takes in, it gives out as its result slice and its carry-out
(41_addsub.md R92). -/
theorem slice_sum_eq (a b : Word) (sub : Bool) (w : LaneWidth) {i : Nat} (hi : i < 32) :
    (slice a i).toNat + (slice (condition b sub) i).toNat
        + (carryIn (laneMask w) a (condition b sub) sub i).toNat
      = (slice (addsub a b sub w) i).toNat
        + 256 * (carryOut (laneMask w) a (condition b sub) sub i).toNat := by
  rw [slice_addsub a b sub w hi, carryOut, ← toNat_eq_low_add_carry, chainSum, sliceSum_toNat]

/-- Settles O23: the carries of the chain, as numbers. -/
theorem addSubIsTheGatedSliceChain : Obligations.AddSubIsTheGatedSliceChain := by
  intro a b sub w
  refine ⟨fun i => (carryIn (laneMask w) a (condition b sub) sub i).toNat,
    fun i => (carryOut (laneMask w) a (condition b sub) sub i).toNat,
    fun i _ => ?_, fun i hi => ⟨Bool.toNat_le _, slice_sum_eq a b sub w hi⟩⟩
  simp only [carryIn_eq_ite (laneMask w) _ _ _ i, isLaneStart_iff, apply_ite Bool.toNat]

/-! ### From the chain to the lane law (41_addsub.md R94) -/

/-- The first `n` slices from slice `lo` up add as one number, with `sub` carried in below them and `c` out above. -/
def RunAdds (a b : Word) (sub : Bool) (w : LaneWidth) (lo n : Nat) (c : Bool) : Prop :=
  slicesNat a lo n + slicesNat (condition b sub) lo n + sub.toNat
    = slicesNat (addsub a b sub w) lo n + 2 ^ (8 * n) * c.toNat

theorem runAdds_zero (a b : Word) (sub : Bool) (w : LaneWidth) (lo : Nat) : RunAdds a b sub w lo 0 sub := by
  simp [RunAdds, slicesNat_zero]

/-- One more slice adder extends the sum by one digit, when the run's carry is the one it takes in. -/
theorem RunAdds.succ {a b : Word} {sub : Bool} {w : LaneWidth} {lo n : Nat} (hi : lo + n < 32)
    (h : RunAdds a b sub w lo n (carryIn (laneMask w) a (condition b sub) sub (lo + n))) :
    RunAdds a b sub w lo (n + 1) (carryOut (laneMask w) a (condition b sub) sub (lo + n)) := by
  have hslice := slice_sum_eq a b sub w hi
  have hpow : 2 ^ (8 * (n + 1)) = 2 ^ (8 * n) * 256 := by rw [Nat.mul_succ, Nat.pow_add]
  rw [RunAdds] at h ⊢
  rw [slicesNat_succ, slicesNat_succ, slicesNat_succ, hpow]
  linear_combination h + 2 ^ (8 * n) * hslice

/-- Inside a lane the run's carry is the carry-in of its next slice: `sub` at the lane start (R91), then the carry-out
of a continuation slice. -/
theorem runAdds_carryIn (a b : Word) (sub : Bool) (w : LaneWidth) {j : Nat} (hj : j < w.lanes) {n : Nat}
    (hn : n < w.slices) :
    RunAdds a b sub w (loSlice j w) n
      (carryIn (laneMask w) a (condition b sub) sub (loSlice j w + n)) := by
  induction n with
  | zero =>
    have hstart : isLaneStart (laneMask w) (loSlice j w + 0) = true := by
      rw [isLaneStart_laneMask_iff w (loSlice_add_lt w hj hn), loSlice, Nat.add_zero, Nat.mul_mod_right]
    rw [carryIn_of_isLaneStart hstart]
    exact runAdds_zero a b sub w _
  | succ n ih =>
    have hn' : n < w.slices := Nat.lt_of_succ_lt hn
    have hfused : (laneMask w).getLsbD (loSlice j w + n) = true := by
      rw [laneMask_of_lane w hj hn']
      exact decide_eq_true hn.ne
    rw [← Nat.add_assoc, carryIn_after_continuation hfused]
    exact (ih hn').succ (loSlice_add_lt w hj hn')

/-- The chain inside a lane is one `W`-bit addition that takes in `sub`; the carry above it is lost. -/
theorem lane_addsub_toNat (a b : Word) (sub : Bool) (w : LaneWidth) {j : Nat} (hj : j < w.lanes) :
    (lane (addsub a b sub w) j w).toNat
      = ((lane a j w).toNat + (lane (condition b sub) j w).toNat + sub.toNat) % 2 ^ w.bits := by
  have hpos := w.slices_pos
  have hlast : w.slices - 1 < w.slices := Nat.sub_lt hpos Nat.one_pos
  have hrun := (runAdds_carryIn a b sub w hj hlast).succ (loSlice_add_lt w hj hlast)
  rw [RunAdds, Nat.sub_add_cancel hpos, Nat.mul_comm 8, w.slices_mul_eight, ← lane_eq_slicesNat,
    ← lane_eq_slicesNat, ← lane_eq_slicesNat] at hrun
  rw [hrun, Nat.add_mul_mod_self_left, BitVec.toNat_mod_cancel]

theorem lane_zero (j : Nat) (w : LaneWidth) : lane 0#256 j w = 0#w.bits := BitVec.extractLsb'_zero

/-- A lane of the complement is the complement of the lane. -/
theorem lane_not (v : Word) (w : LaneWidth) {j : Nat} (hj : j < w.lanes) :
    lane (~~~v) j w = ~~~lane v j w := by
  apply BitVec.eq_of_getLsbD_eq
  intro k hk
  have hinside : w.bits * j + k < 256 := by
    have hle : w.bits * (j + 1) ≤ w.bits * w.lanes := Nat.mul_le_mul_left _ hj
    rw [Nat.mul_comm _ w.lanes, w.lanes_mul_bits, Nat.mul_succ] at hle
    omega
  simp [lane, hk, hinside]

/-- R94, Add: each lane of the result is the sum of the lanes. -/
theorem lane_add (a b : Word) (w : LaneWidth) {j : Nat} (hj : j < w.lanes) :
    lane (addsub a b false w) j w = lane a j w + lane b j w := by
  apply BitVec.eq_of_toNat_eq
  rw [lane_addsub_toNat a b false w hj, BitVec.toNat_add]
  rfl

/-- R94, Subtract: adding the complement and 1 subtracts. -/
theorem lane_sub (a b : Word) (w : LaneWidth) {j : Nat} (hj : j < w.lanes) :
    lane (addsub a b true w) j w = lane a j w - lane b j w := by
  have hone : 1 < 2 ^ w.bits := Nat.one_lt_two_pow w.bits_pos.ne'
  have hcondition : condition b true = ~~~b := rfl
  rw [BitVec.sub_eq_add_neg, BitVec.neg_eq_not_add, ← BitVec.add_assoc, ← lane_not b w hj]
  apply BitVec.eq_of_toNat_eq
  rw [lane_addsub_toNat a b true w hj, hcondition, BitVec.toNat_add, BitVec.toNat_add, BitVec.toNat_ofNat,
    Nat.mod_eq_of_lt hone, Nat.mod_add_mod, Bool.toNat_true]

/-- ADD on Words given by their lanes. -/
theorem addsub_joinLanes (w : LaneWidth) (f g : Nat → BitVec w.bits) :
    addsub (joinLanes w f) (joinLanes w g) false w = joinLanes w fun j => f j + g j :=
  word_ext_lanes w fun j hj => by
    rw [lane_add _ _ w hj, lane_joinLanes w f hj, lane_joinLanes w g hj, lane_joinLanes w _ hj]

/-- Subtraction of `n`-bit words is the difference of their numbers modulo `2^n`. -/
theorem toNat_sub_eq_emod {n : Nat} (x y : BitVec n) :
    ((x - y).toNat : Int) = ((x.toNat : Int) - (y.toNat : Int)) % 2 ^ n := by
  have hle : y.toNat ≤ 2 ^ n := y.isLt.le
  rw [BitVec.toNat_sub]
  push_cast [Nat.cast_sub hle]
  rw [← Int.add_emod_right ((x.toNat : Int) - y.toNat)]
  ring_nf

/-- Settles O24: the two lane laws, read as numbers. -/
theorem addSubFollowsTheLaneLaw : Obligations.AddSubFollowsTheLaneLaw := by
  intro a b w j hj
  rw [lane_add a b w hj, lane_sub a b w hj]
  exact ⟨BitVec.toNat_add _ _, toNat_sub_eq_emod _ _⟩

/-! ### ADD and SUB (41_addsub.md R95, R96) -/

/-- Settles O25: `exec_eq_drive` gives completion and frame, the lane law the lanes. -/
theorem addAddsEachLaneModuloItsWidth : Obligations.AddAddsEachLaneModuloItsWidth := by
  refine ⟨fun _ => rfl, fun w s => ⟨addsub s.op1 s.op2 false w, exec_eq_drive (.add w) s, rfl, fun j hj => ?_⟩,
    addsub_joinLanes .w16 _ _⟩
  rw [lane_add _ _ w hj, BitVec.toNat_add]

/-- Settles O26: as for ADD; a lane that borrows wraps by `BitVec.toNat_sub_of_lt`. -/
theorem subSubtractsEachLaneModuloItsWidth : Obligations.SubSubtractsEachLaneModuloItsWidth := by
  refine ⟨fun _ => rfl,
    fun w s => ⟨addsub s.op1 s.op2 true w, exec_eq_drive (.sub w) s, rfl, fun j hj => ⟨?_, fun hlt => ?_⟩⟩,
    word_ext_lanes .w16 fun j hj => ?_⟩
  · rw [lane_sub _ _ w hj, toNat_sub_eq_emod]
  · have hbound := (lane s.op2 j w).isLt
    rw [lane_sub _ _ w hj, BitVec.toNat_sub_of_lt (BitVec.lt_def.mpr hlt)]
    omega
  · have hones : ∀ j < 16, lane (joinSlices fun _ => 0xFF#8) j .w16 = 0xFFFF#16 := by decide
    rw [lane_sub _ _ _ hj, lane_joinLanes _ _ hj, lane_zero, hones j hj]
    rfl

/-! ### Corner cases (41_addsub.md R97) -/

/-- At W8 every slice starts a lane. -/
theorem carryIn_w8 (a b : Word) (sub : Bool) {i : Nat} (hi : i < 32) :
    carryIn (laneMask .w8) a b sub i = sub :=
  carryIn_of_isLaneStart ((isLaneStart_laneMask_iff .w8 hi).mpr (Nat.mod_one i)) a b sub

/-- A lane that overflows keeps its low `W` bits. -/
theorem lane_add_of_overflow (a b : Word) (w : LaneWidth) {j : Nat} (hj : j < w.lanes)
    (h : 2 ^ w.bits ≤ (lane a j w).toNat + (lane b j w).toNat) :
    (lane (addsub a b false w) j w).toNat = (lane a j w).toNat + (lane b j w).toNat - 2 ^ w.bits := by
  have ha := (lane a j w).isLt
  have hb := (lane b j w).isLt
  rw [lane_add a b w hj, BitVec.toNat_add, Nat.mod_eq_sub_mod h, Nat.mod_eq_of_lt (by omega)]

/-- The final carry of an all-ones lane plus 1 is lost. -/
theorem lane_add_of_allOnes_one {a b : Word} {w : LaneWidth} {j : Nat} (hj : j < w.lanes)
    (ha : lane a j w = BitVec.allOnes w.bits) (hb : lane b j w = 1#w.bits) :
    lane (addsub a b false w) j w = 0#w.bits := by
  rw [lane_add a b w hj, ha, hb, ← BitVec.neg_one_eq_allOnes, BitVec.add_comm,
    ← BitVec.sub_eq_add_neg, BitVec.sub_self]

theorem addsub_self (a : Word) (w : LaneWidth) : addsub a a true w = 0#256 :=
  word_ext_lanes w fun j hj => by rw [lane_sub a a w hj, BitVec.sub_self, lane_zero]

theorem addsub_zero (a : Word) (w : LaneWidth) : addsub a 0#256 true w = a :=
  word_ext_lanes w fun j hj => by rw [lane_sub a _ w hj, lane_zero, BitVec.sub_zero]

theorem lane_add_self (a : Word) (w : LaneWidth) {j : Nat} (hj : j < w.lanes) :
    lane (addsub a a false w) j w = lane a j w <<< 1 := by
  rw [lane_add a a w hj]
  apply BitVec.eq_of_toNat_eq
  rw [BitVec.toNat_add, BitVec.toNat_shiftLeft, Nat.shiftLeft_eq, Nat.pow_one, Nat.mul_two]

/-- Adding back undoes a subtraction, lane by lane. -/
theorem addsub_sub_add_cancel (a b : Word) (w : LaneWidth) : addsub (addsub a b true w) b false w = a :=
  word_ext_lanes w fun j hj => by rw [lane_add _ b w hj, lane_sub a b w hj, BitVec.sub_add_cancel]

/-- Scenario 1 of the source: slice 0 overflows, and no other slice sees its carry. -/
theorem addsub_scenario_one :
    addsub (joinSlices fun _ => 0xFF#8) 1#256 false .w8 = joinSlices (fun i => if i = 0 then 0x00#8 else 0xFF#8) :=
  word_ext_lanes .w8 fun j hj => by
    have hone : ∀ i < 32, slice 1#256 i = if i = 0 then 1#8 else 0#8 := by decide
    rw [lane_add _ _ .w8 hj, lane_w8, lane_w8, lane_w8, slice_joinSlices _ hj, slice_joinSlices _ hj, hone j hj]
    split <;> rfl

/-- R97's example of a carry across the slices of a lane. -/
theorem addsub_carry_example :
    addsub (joinLanes .w64 fun _ => 0x00000000FFFFFFFF#64) (joinLanes .w64 fun _ => 0x0000000000000001#64) false .w64
      = joinLanes .w64 fun _ => 0x0000000100000000#64 :=
  addsub_joinLanes .w64 _ _

/-- Settles O27: one lemma for each corner case. -/
theorem addSubCornerCases : Obligations.AddSubCornerCases := by
  refine ⟨fun a b w j hj h => lane_add_of_overflow a b w hj h, addsub_scenario_one,
    fun a b sub w i _ hfused => carryIn_after_continuation hfused a b sub, addsub_carry_example,
    fun a b w j hj ha hb => lane_add_of_allOnes_one hj ha hb, addsub_self, addsub_zero,
    fun a w j hj => ⟨?_, lane_add_self a w hj⟩, fun a b sub i hi => carryIn_w8 a b sub hi, addsub_sub_add_cancel⟩
  rw [lane_add a a w hj, BitVec.toNat_add, Nat.two_mul]

end Sys2Proof.Machine

namespace Sys2Proof.Machine

/-! ## Comparator (42_compare.md) -/

/-! ### Signs as numbers compare (42_compare.md R110, R111) -/

/-- The sign of two numbers. -/
def orderSign (x y : Nat) : Sign := if y < x then .gt else if x < y then .lt else .eq

/-- One step of the fold of R111: a sign other than EQ decides, EQ falls through to the slices below. -/
def Sign.fallThrough : Sign → Sign → Sign
  | .eq, below => below
  | .gt, _ => .gt
  | .lt, _ => .lt

theorem orderSign_eq_gt_iff (x y : Nat) : orderSign x y = .gt ↔ y < x := by
  unfold orderSign
  split_ifs with hgt hlt
  · simp [hgt]
  · simp [hgt]
  · simp [hgt]

theorem orderSign_eq_lt_iff (x y : Nat) : orderSign x y = .lt ↔ x < y := by
  unfold orderSign
  split_ifs with hgt hlt
  · simp [hgt.le]
  · simp [hlt]
  · simp [hlt]

theorem orderSign_eq_eq_iff (x y : Nat) : orderSign x y = .eq ↔ x = y := by
  unfold orderSign
  split_ifs with hgt hlt
  · simp [hgt.ne']
  · simp [hlt.ne]
  · simp [Nat.le_antisymm (Nat.le_of_not_lt hgt) (Nat.le_of_not_lt hlt)]

theorem sliceSign_eq_orderSign (x y : Slice) : sliceSign x y = orderSign x.toNat y.toNat := rfl

theorem sliceSign_self (x : Slice) : sliceSign x x = .eq := (orderSign_eq_eq_iff _ _).mpr rfl

/-- Slices that differ are greater or less. -/
theorem sliceSign_of_ne {x y : Slice} (h : x ≠ y) : sliceSign x y = if y.toNat < x.toNat then .gt else .lt := by
  have hne : x.toNat ≠ y.toNat := BitVec.toNat_ne.mp h
  split_ifs with hgt
  · exact (orderSign_eq_gt_iff _ _).mpr hgt
  · exact (orderSign_eq_lt_iff _ _).mpr (by omega)

@[simp] theorem Sign.eq_fallThrough (r : Sign) : Sign.eq.fallThrough r = r := rfl

@[simp] theorem Sign.fallThrough_eq (r : Sign) : r.fallThrough .eq = r := by cases r <;> rfl

theorem Sign.fallThrough_of_ne {r : Sign} (h : r ≠ .eq) (below : Sign) : r.fallThrough below = r := by
  cases r with
  | eq => exact absurd rfl h
  | gt => rfl
  | lt => rfl

/-- A greater top digit outweighs all digits below it. -/
theorem add_mul_lt_add_mul_of_digit_lt {B l l' h h' : Nat} (hl : l < B) (hlt : h < h') :
    l + B * h < l' + B * h' := by
  have hle : B * (h + 1) ≤ B * h' := Nat.mul_le_mul_left B hlt
  rw [Nat.mul_succ] at hle
  omega

/-- Numbers of two digits compare by the top digit, and by the low one where the top ones agree. -/
theorem orderSign_digits {B l l' : Nat} (hl : l < B) (hl' : l' < B) (h h' : Nat) :
    orderSign (l + B * h) (l' + B * h') = (orderSign h h').fallThrough (orderSign l l') := by
  rcases Nat.lt_trichotomy h h' with hlt | rfl | hgt
  · rw [(orderSign_eq_lt_iff h h').mpr hlt]
    exact (orderSign_eq_lt_iff _ _).mpr (add_mul_lt_add_mul_of_digit_lt hl hlt)
  · rw [(orderSign_eq_eq_iff h h).mpr rfl]
    simp [orderSign]
  · rw [(orderSign_eq_gt_iff h h').mpr hgt]
    exact (orderSign_eq_gt_iff _ _).mpr (add_mul_lt_add_mul_of_digit_lt hl' hgt)

/-! ### The fold and the gated chain (42_compare.md R111) -/

theorem signFold_succ (a b : Word) (lo n : Nat) :
    signFold a b lo (n + 1)
      = (sliceSign (slice a (lo + n)) (slice b (lo + n))).fallThrough (signFold a b lo n) := by
  rw [signFold]
  cases sliceSign (slice a (lo + n)) (slice b (lo + n)) <;> rfl

/-- A slice that differs decides the fold from it downward. -/
theorem signFold_succ_of_ne {a b : Word} {lo n : Nat} (h : slice a (lo + n) ≠ slice b (lo + n)) :
    signFold a b lo (n + 1) = sliceSign (slice a (lo + n)) (slice b (lo + n)) := by
  have hne : sliceSign (slice a (lo + n)) (slice b (lo + n)) ≠ .eq := fun heq =>
    h (BitVec.eq_of_toNat_eq ((orderSign_eq_eq_iff _ _).mp heq))
  rw [signFold_succ, Sign.fallThrough_of_ne hne]

/-- Equal slices at the top fall through. -/
theorem signFold_of_top_equal {a b : Word} {lo m n : Nat} (hle : m ≤ n)
    (h : ∀ u < n, m ≤ u → slice a (lo + u) = slice b (lo + u)) : signFold a b lo n = signFold a b lo m := by
  induction n, hle using Nat.le_induction with
  | base => rfl
  | succ n hle ih =>
    rw [signFold_succ, h n n.lt_succ_self hle, sliceSign_self, Sign.eq_fallThrough]
    exact ih fun u hu hmu => h u (Nat.lt_succ_of_lt hu) hmu

theorem signChain_of_isLaneStart {cont : BitVec 32} {i : Nat} (h : isLaneStart cont i = true) (a b : Word) :
    signChain cont a b i = sliceSign (slice a i) (slice b i) := by
  cases i with
  | zero => rfl
  | succ i =>
    rw [signChain, isFusedBelow_eq_not_isLaneStart, h]
    rfl

theorem signChain_after_continuation {cont : BitVec 32} {i : Nat} (h : cont.getLsbD i = true) (a b : Word) :
    signChain cont a b (i + 1)
      = (sliceSign (slice a (i + 1)) (slice b (i + 1))).fallThrough (signChain cont a b i) := by
  rw [signChain, isFusedBelow, h]
  cases sliceSign (slice a (i + 1)) (slice b (i + 1)) <;> rfl

/-- On slice `n` of a lane, the upward propagation holds the fold of the slices up to it: the chain restarts at the
lane's first slice, and below the top slice every continuation bit is set. -/
theorem signChain_eq_signFold (a b : Word) (w : LaneWidth) {j : Nat} (hj : j < w.lanes) {n : Nat}
    (hn : n < w.slices) :
    signChain (laneMask w) a b (loSlice j w + n) = signFold a b (loSlice j w) (n + 1) := by
  induction n with
  | zero =>
    have hstart : isLaneStart (laneMask w) (loSlice j w + 0) = true := by
      rw [isLaneStart_laneMask_iff w (loSlice_add_lt w hj hn), loSlice, Nat.add_zero, Nat.mul_mod_right]
    rw [signFold_succ, signChain_of_isLaneStart hstart]
    exact (Sign.fallThrough_eq _).symm
  | succ n ih =>
    have hbelow : n < w.slices := Nat.lt_of_succ_lt hn
    have hcont : (laneMask w).getLsbD (loSlice j w + n) = true := by
      rw [laneMask_of_lane w hj hbelow]
      exact decide_eq_true hn.ne
    rw [← Nat.add_assoc, signChain_after_continuation hcont, ih hbelow, signFold_succ a b _ (n + 1), Nat.add_assoc]

/-- Settles O29: the slices above the deciding one fall through, and the chain at the lane's top slice is the whole
fold. -/
theorem topDifferingSliceDecidesTheLane : Obligations.TopDifferingSliceDecidesTheLane := by
  intro a b w j hj
  refine ⟨fun t ht habove hne => ?_, fun hall => ?_, ?_⟩
  · rw [laneSign, signFold_of_top_equal ht habove, signFold_succ_of_ne hne, sliceSign_of_ne hne]
  · exact signFold_of_top_equal (Nat.zero_le _) fun u hu _ => hall u hu
  · rw [hiSlice_eq, signChain_eq_signFold a b w hj (Nat.sub_lt w.slices_pos Nat.one_pos),
      Nat.sub_add_cancel w.slices_pos, laneSign]

/-! ### The lane law (42_compare.md R112) -/

/-- The fold compares the numbers in the slices it runs over. -/
theorem signFold_eq_orderSign (a b : Word) (lo n : Nat) :
    signFold a b lo n = orderSign (slicesNat a lo n) (slicesNat b lo n) := by
  induction n with
  | zero => rw [slicesNat_zero, slicesNat_zero]; rfl
  | succ n ih =>
    rw [signFold_succ, slicesNat_succ, slicesNat_succ,
      orderSign_digits (slicesNat_lt a lo n) (slicesNat_lt b lo n), ih, sliceSign_eq_orderSign]

theorem laneSign_eq_orderSign (a b : Word) (w : LaneWidth) (j : Nat) :
    laneSign a b w j = orderSign (lane a j w).toNat (lane b j w).toNat := by
  rw [laneSign, signFold_eq_orderSign, lane_eq_slicesNat, lane_eq_slicesNat]

theorem laneSign_eq_gt_iff (a b : Word) (w : LaneWidth) (j : Nat) :
    laneSign a b w j = .gt ↔ (lane a j w).toNat > (lane b j w).toNat := by
  rw [laneSign_eq_orderSign, orderSign_eq_gt_iff]

theorem laneSign_eq_lt_iff (a b : Word) (w : LaneWidth) (j : Nat) :
    laneSign a b w j = .lt ↔ (lane a j w).toNat < (lane b j w).toNat := by
  rw [laneSign_eq_orderSign, orderSign_eq_lt_iff]

theorem laneSign_eq_eq_iff (a b : Word) (w : LaneWidth) (j : Nat) :
    laneSign a b w j = .eq ↔ lane a j w = lane b j w := by
  rw [laneSign_eq_orderSign, orderSign_eq_eq_iff, BitVec.toNat_inj]

/-- Settles O30: the fold compares the lanes as numbers. -/
theorem laneSignIsTheUnsignedComparison : Obligations.LaneSignIsTheUnsignedComparison :=
  fun a b w j _ => ⟨laneSign_eq_gt_iff a b w j, laneSign_eq_lt_iff a b w j, laneSign_eq_eq_iff a b w j⟩

/-! ### The predicate mask (42_compare.md R113) -/

theorem allOnes_ne_zero (w : LaneWidth) : BitVec.allOnes w.bits ≠ 0#w.bits := by cases w <;> decide

theorem lane_compareLanes_eq_ite (a b : Word) (w : LaneWidth) (want : Sign) {j : Nat} (hj : j < w.lanes) :
    lane (compareLanes a b w want) j w
      = if laneSign a b w j = want then BitVec.allOnes w.bits else 0#w.bits := by
  rw [lane_compareLanes a b w want hj, predicateMask]
  simp only [decide_eq_true_eq]

theorem lane_compareLanes_of_eq {a b : Word} {w : LaneWidth} {want : Sign} {j : Nat} (hj : j < w.lanes)
    (h : laneSign a b w j = want) : lane (compareLanes a b w want) j w = BitVec.allOnes w.bits := by
  rw [lane_compareLanes_eq_ite a b w want hj, if_pos h]

theorem lane_compareLanes_of_ne {a b : Word} {w : LaneWidth} {want : Sign} {j : Nat} (hj : j < w.lanes)
    (h : laneSign a b w j ≠ want) : lane (compareLanes a b w want) j w = 0#w.bits := by
  rw [lane_compareLanes_eq_ite a b w want hj, if_neg h]

/-- The two mask values are told apart, so an all-ones lane is exactly a true one. -/
theorem lane_compareLanes_eq_allOnes_iff (a b : Word) (w : LaneWidth) (want : Sign) {j : Nat} (hj : j < w.lanes) :
    lane (compareLanes a b w want) j w = BitVec.allOnes w.bits ↔ laneSign a b w j = want := by
  refine ⟨fun hones => ?_, lane_compareLanes_of_eq hj⟩
  by_contra hne
  rw [lane_compareLanes_of_ne hj hne] at hones
  exact allOnes_ne_zero w hones.symm

/-- Every slice of an all-ones lane is `0xFF`. -/
theorem extractLsb'_allOnes_slice (w : LaneWidth) {t : Nat} (ht : t < w.slices) :
    (BitVec.allOnes w.bits).extractLsb' (8 * t) 8 = 0xFF#8 := by
  revert t
  cases w <;> decide

/-- Settles O31: a lane is one of the two mask values, and `slice_of_lane` cuts it into slices. -/
theorem predicateIsBroadcastOverItsLane : Obligations.PredicateIsBroadcastOverItsLane := by
  intro a b w want j hj
  refine ⟨fun heq => ⟨?_, fun t ht => ?_⟩, fun hne => ⟨?_, fun t ht => ?_⟩⟩
  · rw [lane_compareLanes_of_eq hj heq, BitVec.toNat_allOnes]
  · rw [← slice_of_lane _ w j ht, lane_compareLanes_of_eq hj heq, extractLsb'_allOnes_slice w ht]
  · rw [lane_compareLanes_of_ne hj hne, BitVec.toNat_ofNat, Nat.zero_mod]
  · rw [← slice_of_lane _ w j ht, lane_compareLanes_of_ne hj hne, BitVec.extractLsb'_zero]

/-! ### EQ, GT and LT (42_compare.md R114 to R116) -/

/-- A comparison of Words given by their lanes. -/
theorem compareLanes_joinLanes (w : LaneWidth) (f g : Nat → BitVec w.bits) (want : Sign) :
    compareLanes (joinLanes w f) (joinLanes w g) w want
      = joinLanes w fun j => predicateMask w (decide (orderSign (f j).toNat (g j).toNat = want)) :=
  word_ext_lanes w fun j hj => by
    rw [lane_compareLanes _ _ w want hj, laneSign_eq_orderSign, lane_joinLanes w f hj, lane_joinLanes w g hj,
      lane_joinLanes w _ hj]

/-- Lanes are equal where all their slices are. -/
theorem lane_eq_iff_slices_eq (a b : Word) (w : LaneWidth) (j : Nat) :
    lane a j w = lane b j w ↔ ∀ t < w.slices, slice a (loSlice j w + t) = slice b (loSlice j w + t) := by
  refine ⟨fun hlane t ht => ?_, fun hslices => ?_⟩
  · rw [← slice_of_lane a w j ht, ← slice_of_lane b w j ht, hlane]
  · rw [← laneSign_eq_eq_iff]
    exact signFold_of_top_equal (Nat.zero_le _) fun u hu _ => hslices u hu

/-- Settles O32: completion and frame by `exec_eq_drive`, the lanes by the lane law. -/
theorem eqMarksTheEqualLanes : Obligations.EqMarksTheEqualLanes := by
  refine ⟨fun _ => rfl,
    fun w s => ⟨compareLanes s.op1 s.op2 w .eq, exec_eq_drive (.eq w) s, fun j hj => ⟨?_, ?_, ?_⟩⟩, ?_⟩
  · exact lane_compareLanes_eq_ite _ _ w .eq hj
  · simp only [lane_compareLanes_eq_ite _ _ w .eq hj, laneSign_eq_eq_iff]
  · rw [lane_compareLanes_eq_allOnes_iff _ _ w .eq hj, laneSign_eq_eq_iff, lane_eq_iff_slices_eq]
  · rw [compareLanes_joinLanes]
    rfl

/-- Settles O33: as for EQ. -/
theorem gtMarksTheGreaterLanes : Obligations.GtMarksTheGreaterLanes := by
  refine ⟨fun _ => rfl,
    fun w s => ⟨compareLanes s.op1 s.op2 w .gt, exec_eq_drive (.gt w) s, fun j hj => ⟨?_, ?_⟩⟩, ?_⟩
  · exact lane_compareLanes_eq_ite _ _ w .gt hj
  · simp only [lane_compareLanes_eq_ite _ _ w .gt hj, laneSign_eq_gt_iff]
  · exact compareLanes_joinLanes .w16 _ _ .gt

/-- Settles O34: as for EQ; the W8 example reads the 16-bit lanes byte by byte. -/
theorem ltMarksTheLesserLanes : Obligations.LtMarksTheLesserLanes := by
  refine ⟨fun _ => rfl,
    fun w s => ⟨compareLanes s.op1 s.op2 w .lt, exec_eq_drive (.lt w) s, fun j hj => ⟨?_, ?_⟩⟩, ?_, ?_⟩
  · exact lane_compareLanes_eq_ite _ _ w .lt hj
  · simp only [lane_compareLanes_eq_ite _ _ w .lt hj, laneSign_eq_lt_iff]
  · exact compareLanes_joinLanes .w16 _ _ .lt
  · decide

/-! ### Corner cases (42_compare.md R117) -/

theorem lane_allOnes (w : LaneWidth) {j : Nat} (hj : j < w.lanes) :
    lane (BitVec.allOnes 256) j w = BitVec.allOnes w.bits := by
  rw [← BitVec.not_zero, lane_not _ w hj, lane_zero, BitVec.not_zero]

/-- A comparison that is true in every lane. -/
theorem compareLanes_eq_allOnes {a b : Word} {w : LaneWidth} {want : Sign}
    (h : ∀ j < w.lanes, laneSign a b w j = want) : compareLanes a b w want = BitVec.allOnes 256 :=
  word_ext_lanes w fun j hj => by rw [lane_compareLanes_of_eq hj (h j hj), lane_allOnes w hj]

/-- A comparison that is false in every lane. -/
theorem compareLanes_eq_zero {a b : Word} {w : LaneWidth} {want : Sign}
    (h : ∀ j < w.lanes, laneSign a b w j ≠ want) : compareLanes a b w want = 0#256 :=
  word_ext_lanes w fun j hj => by rw [lane_compareLanes_of_ne hj (h j hj), lane_zero]

theorem lane_compareLanes_of_lanes_eq {a b : Word} {w : LaneWidth} {j : Nat} (hj : j < w.lanes)
    (h : lane a j w = lane b j w) :
    lane (compareLanes a b w .eq) j w = BitVec.allOnes w.bits ∧
      lane (compareLanes a b w .gt) j w = 0#w.bits ∧ lane (compareLanes a b w .lt) j w = 0#w.bits := by
  have hsign : laneSign a b w j = .eq := (laneSign_eq_eq_iff a b w j).mpr h
  exact ⟨lane_compareLanes_of_eq hj hsign, lane_compareLanes_of_ne hj (by simp [hsign]),
    lane_compareLanes_of_ne hj (by simp [hsign])⟩

/-- Of the three comparisons, the one that asks for the lane's sign is true, and no other. -/
theorem existsUnique_true_comparison (a b : Word) (w : LaneWidth) {j : Nat} (hj : j < w.lanes) :
    ∃! want : Sign, lane (compareLanes a b w want) j w = BitVec.allOnes w.bits :=
  ⟨laneSign a b w j, lane_compareLanes_of_eq hj rfl,
    fun want hones => ((lane_compareLanes_eq_allOnes_iff a b w want hj).mp hones).symm⟩

theorem laneSign_self (a : Word) (w : LaneWidth) (j : Nat) : laneSign a a w j = .eq :=
  (laneSign_eq_eq_iff a a w j).mpr rfl

theorem compareLanes_self (a : Word) (w : LaneWidth) :
    compareLanes a a w .eq = BitVec.allOnes 256 ∧ compareLanes a a w .gt = 0#256 ∧
      compareLanes a a w .lt = 0#256 :=
  ⟨compareLanes_eq_allOnes fun j _ => laneSign_self a w j,
    compareLanes_eq_zero fun j _ => by simp [laneSign_self],
    compareLanes_eq_zero fun j _ => by simp [laneSign_self]⟩

/-- The comparison is unsigned: a set top bit is worth at least half the range, a clear one less than half. -/
theorem laneSign_of_msb {a b : Word} {w : LaneWidth} {j : Nat} (ha : (lane a j w).msb = true)
    (hb : (lane b j w).msb = false) : laneSign a b w j = .gt :=
  (laneSign_eq_gt_iff a b w j).mpr
    (lt_of_lt_of_le (BitVec.toNat_lt_of_msb_false hb) (BitVec.le_toNat_of_msb_true ha))

theorem laneSign_of_top_slice_gt {a b : Word} {w : LaneWidth} {j t : Nat} (hj : j < w.lanes) (ht : t < w.slices)
    (habove : ∀ u < w.slices, t < u → slice a (loSlice j w + u) = slice b (loSlice j w + u))
    (hgt : (slice b (loSlice j w + t)).toNat < (slice a (loSlice j w + t)).toNat) : laneSign a b w j = .gt := by
  have hne : slice a (loSlice j w + t) ≠ slice b (loSlice j w + t) := BitVec.toNat_ne.mpr hgt.ne'
  obtain ⟨hdecides, _⟩ := topDifferingSliceDecidesTheLane a b w j hj
  rw [hdecides t ht habove hne, if_pos hgt]

theorem lane_zero_lt_lane_allOnes (w : LaneWidth) {j : Nat} (hj : j < w.lanes) :
    (lane 0#256 j w).toNat < (lane (BitVec.allOnes 256) j w).toNat := by
  rw [lane_allOnes w hj, lane_zero]
  cases w <;> decide

/-- No lane is less than 0. -/
theorem laneSign_zero_ne_lt (a : Word) (w : LaneWidth) (j : Nat) : laneSign a 0#256 w j ≠ .lt := by
  rw [Ne, laneSign_eq_lt_iff, lane_zero, BitVec.toNat_ofNat, Nat.zero_mod]
  exact Nat.not_lt_zero _

/-- R117's example of a top slice that overrules three lower ones. -/
theorem compareLanes_top_slice_example :
    compareLanes (joinLanes .w32 fun _ => 0x01000000#32) (joinLanes .w32 fun _ => 0x00FFFFFF#32) .w32 .gt
      = BitVec.allOnes 256 := by
  rw [compareLanes_joinLanes]
  rfl

/-- R117's example of one pair of operands with two masks. -/
theorem compareLanes_width_example :
    compareLanes (joinLanes .w16 fun _ => 0x0100#16) (joinLanes .w16 fun _ => 0x00FF#16) .w8 .gt
      ≠ compareLanes (joinLanes .w16 fun _ => 0x0100#16) (joinLanes .w16 fun _ => 0x00FF#16) .w16 .gt := by
  decide

theorem lane_compareLanes_zero_or_allOnes (a b : Word) (w : LaneWidth) (want : Sign) {j : Nat} (hj : j < w.lanes) :
    lane (compareLanes a b w want) j w = 0#w.bits ∨ lane (compareLanes a b w want) j w = BitVec.allOnes w.bits := by
  by_cases h : laneSign a b w j = want
  · exact .inr (lane_compareLanes_of_eq hj h)
  · exact .inl (lane_compareLanes_of_ne hj h)

/-- Settles O35: one lemma for each corner case. -/
theorem compareCornerCases : Obligations.CompareCornerCases := by
  refine ⟨fun a b w j hj h => lane_compareLanes_of_lanes_eq hj h,
    fun a b w j hj => existsUnique_true_comparison a b w hj, compareLanes_self,
    fun a b w j hj ha hb => lane_compareLanes_of_eq hj (laneSign_of_msb ha hb),
    fun a b w j hj t ht habove hgt => lane_compareLanes_of_eq hj (laneSign_of_top_slice_gt hj ht habove hgt),
    compareLanes_top_slice_example, compareLanes_width_example,
    fun w => ⟨compareLanes_eq_allOnes fun j hj => ?_, compareLanes_eq_allOnes fun j hj => ?_⟩,
    fun a w => compareLanes_eq_zero fun j _ => laneSign_zero_ne_lt a w j,
    fun a b w want j hj => lane_compareLanes_zero_or_allOnes a b w want hj⟩
  · exact (laneSign_eq_gt_iff _ _ w j).mpr (lane_zero_lt_lane_allOnes w hj)
  · exact (laneSign_eq_lt_iff _ _ w j).mpr (lane_zero_lt_lane_allOnes w hj)

end Sys2Proof.Machine

namespace Sys2Proof.Machine

/-! ## Shifter (43_shift.md) -/

/-! ### One lane (43_shift.md R131 to R133)

A bit vector shifted by its width or more is 0, so R131's saturation is what the shifts of bit vectors already do. -/

theorem shiftLane_left (w : LaneWidth) (v n : BitVec w.bits) : shiftLane w v n .left = v <<< n.toNat := by
  unfold shiftLane
  split
  · next h => exact (BitVec.shiftLeft_eq_zero h).symm
  · rfl

theorem shiftLane_right (w : LaneWidth) (v n : BitVec w.bits) : shiftLane w v n .right = v >>> n.toNat := by
  unfold shiftLane
  split
  · next h => exact (BitVec.ushiftRight_eq_zero h).symm
  · rfl

/-- R131: an amount of the lane width or more saturates. -/
theorem shiftLane_of_bits_le {w : LaneWidth} {n : BitVec w.bits} (h : w.bits ≤ n.toNat) (v : BitVec w.bits)
    (d : Direction) : shiftLane w v n d = 0#w.bits :=
  if_pos h

theorem shiftLane_of_amount_zero {w : LaneWidth} {n : BitVec w.bits} (h : n.toNat = 0) (v : BitVec w.bits)
    (d : Direction) : shiftLane w v n d = v := by
  cases d with
  | left => rw [shiftLane_left, h, BitVec.shiftLeft_zero]
  | right => rw [shiftLane_right, h, BitVec.ushiftRight_zero]

theorem shiftLane_zero (w : LaneWidth) (n : BitVec w.bits) (d : Direction) : shiftLane w 0#w.bits n d = 0#w.bits := by
  cases d with
  | left => rw [shiftLane_left, BitVec.zero_shiftLeft]
  | right => rw [shiftLane_right, BitVec.zero_ushiftRight]

/-! ### Every lane (43_shift.md R130) -/

theorem lane_shl (a b : Word) (w : LaneWidth) {j : Nat} (hj : j < w.lanes) :
    lane (shiftLanes a b w .left) j w = lane a j w <<< (lane b j w).toNat := by
  rw [lane_shiftLanes _ _ w _ hj, shiftLane_left]

theorem lane_shr (a b : Word) (w : LaneWidth) {j : Nat} (hj : j < w.lanes) :
    lane (shiftLanes a b w .right) j w = lane a j w >>> (lane b j w).toNat := by
  rw [lane_shiftLanes _ _ w _ hj, shiftLane_right]

theorem lane_shl_toNat (a b : Word) (w : LaneWidth) {j : Nat} (hj : j < w.lanes) :
    (lane (shiftLanes a b w .left) j w).toNat
      = (lane a j w).toNat * 2 ^ (lane b j w).toNat % 2 ^ w.bits := by
  rw [lane_shl a b w hj, BitVec.toNat_shiftLeft, Nat.shiftLeft_eq]

theorem lane_shr_toNat (a b : Word) (w : LaneWidth) {j : Nat} (hj : j < w.lanes) :
    (lane (shiftLanes a b w .right) j w).toNat = (lane a j w).toNat / 2 ^ (lane b j w).toNat := by
  rw [lane_shr a b w hj, BitVec.toNat_ushiftRight, Nat.shiftRight_eq_div_pow]

/-- R131 for a lane of the result. -/
theorem lane_shiftLanes_of_bits_le {b : Word} {w : LaneWidth} {j : Nat} (hj : j < w.lanes)
    (h : w.bits ≤ (lane b j w).toNat) (a : Word) (d : Direction) : lane (shiftLanes a b w d) j w = 0#w.bits := by
  rw [lane_shiftLanes _ _ w _ hj, shiftLane_of_bits_le h]

/-- One saturating amount in every lane leaves nothing. -/
theorem shiftLanes_joinLanes_const_eq_zero {w : LaneWidth} {n : BitVec w.bits} (h : w.bits ≤ n.toNat) (a : Word)
    (d : Direction) : shiftLanes a (joinLanes w fun _ => n) w d = 0#256 :=
  word_ext_lanes w fun j hj => by
    rw [lane_shiftLanes_of_bits_le hj (by rwa [lane_joinLanes w _ hj]), lane_zero]

/-- A shift of Words given by their lanes. -/
theorem shiftLanes_joinLanes (w : LaneWidth) (f g : Nat → BitVec w.bits) (d : Direction) :
    shiftLanes (joinLanes w f) (joinLanes w g) w d = joinLanes w fun j => shiftLane w (f j) (g j) d :=
  word_ext_lanes w fun j hj => by
    rw [lane_shiftLanes _ _ w _ hj, lane_joinLanes w f hj, lane_joinLanes w g hj, lane_joinLanes w _ hj]

/-! ### SHL and SHR (43_shift.md R132, R133) -/

/-- Settles O38: completion and frame by `exec_eq_drive`; a lane saturates or is the product. -/
theorem shlShiftsEachLaneLeft : Obligations.ShlShiftsEachLaneLeft := by
  refine ⟨fun _ => rfl,
    fun w s => ⟨shiftLanes s.op1 s.op2 w .left, exec_eq_drive (.shl w) s, fun j hj => ?_⟩,
    shiftLanes_joinLanes .w8 _ _ .left, shiftLanes_joinLanes_const_eq_zero (by decide) _ .left⟩
  split
  · next h => rw [lane_shiftLanes_of_bits_le hj h, BitVec.toNat_zero]
  · exact lane_shl_toNat _ _ w hj

/-- Settles O39: as for SHL, with the quotient. -/
theorem shrShiftsEachLaneRight : Obligations.ShrShiftsEachLaneRight := by
  refine ⟨fun _ => rfl,
    fun w s => ⟨shiftLanes s.op1 s.op2 w .right, exec_eq_drive (.shr w) s, fun j hj => ?_⟩,
    shiftLanes_joinLanes .w16 _ _ .right, shiftLanes_joinLanes_const_eq_zero (by decide) _ .right⟩
  split
  · next h => rw [lane_shiftLanes_of_bits_le hj h, BitVec.toNat_zero]
  · exact lane_shr_toNat _ _ w hj

/-! ### The right shift by reversal (43_shift.md R134) -/

/-- The bit counted from the top of a lane is the bit counted from the bottom of its reversal. -/
theorem reverse_shiftLeft_reverse {n : Nat} (v : BitVec n) (k : Nat) : (v.reverse <<< k).reverse = v >>> k := by
  apply BitVec.eq_of_getLsbD_eq
  intro m _
  rw [BitVec.getLsbD_reverse, BitVec.getMsbD_shiftLeft, BitVec.getMsbD_reverse, BitVec.getLsbD_ushiftRight,
    Nat.add_comm]

theorem getLsbD_reverse_of_lt {n : Nat} (v : BitVec n) {m : Nat} (hm : m < n) :
    v.reverse.getLsbD m = v.getLsbD (n - 1 - m) := by
  rw [BitVec.getLsbD_reverse, BitVec.getMsbD_eq_getLsbD, decide_eq_true hm, Bool.true_and]

theorem getLsbD_rev (v : Word) {k : Nat} (hk : k < 256) : (rev v).getLsbD k = v.getLsbD (255 - k) :=
  getLsbD_reverse_of_lt v hk

/-! Lane `N-1-j` is the mirrored lane of lane `j`. -/

theorem mirroredLane_lt (w : LaneWidth) {j : Nat} (hj : j < w.lanes) : w.lanes - 1 - j < w.lanes := by omega

theorem mirroredLane_mirroredLane (w : LaneWidth) {j : Nat} (hj : j < w.lanes) :
    w.lanes - 1 - (w.lanes - 1 - j) = j := by omega

/-- The position opposite bit `m` of lane `j` lies in the mirrored lane, opposite bit `m` of it. -/
theorem opposite_bit_eq (w : LaneWidth) {j m : Nat} (hj : j < w.lanes) (hm : m < w.bits) :
    w.bits * j + m < 256 ∧ 255 - (w.bits * j + m) = w.bits * (w.lanes - 1 - j) + (w.bits - 1 - m) := by
  obtain ⟨d, hd⟩ : ∃ d, w.lanes = j + 1 + d := ⟨w.lanes - (j + 1), by omega⟩
  have hmirror : w.lanes - 1 - j = d := by omega
  have htotal : w.bits * j + w.bits + w.bits * d = 256 := by
    rw [← w.lanes_mul_bits, hd]; ring
  rw [hmirror]
  omega

/-- Whole-word reversal maps a lane onto the mirrored lane with its bits reversed. -/
theorem lane_rev (v : Word) (w : LaneWidth) {j : Nat} (hj : j < w.lanes) :
    lane (rev v) j w = (lane v (w.lanes - 1 - j) w).reverse := by
  apply BitVec.eq_of_getLsbD_eq
  intro m hm
  obtain ⟨hlt, hopposite⟩ := opposite_bit_eq w hj hm
  have hbit : w.bits - 1 - m < w.bits := by omega
  rw [getLsbD_reverse_of_lt _ hm, lane, lane, BitVec.getLsbD_extractLsb', BitVec.getLsbD_extractLsb',
    getLsbD_rev v hlt, hopposite, decide_eq_true hm, decide_eq_true hbit]

theorem lane_rev_mirroredLane (v : Word) (w : LaneWidth) {j : Nat} (hj : j < w.lanes) :
    lane (rev v) (w.lanes - 1 - j) w = (lane v j w).reverse := by
  rw [lane_rev v w (mirroredLane_lt w hj), mirroredLane_mirroredLane w hj]

theorem lane_mirror_mirroredLane (b : Word) (w : LaneWidth) {j : Nat} (hj : j < w.lanes) :
    lane (mirror b w) (w.lanes - 1 - j) w = lane b j w := by
  rw [lane_mirror b w (mirroredLane_lt w hj), mirroredLane_mirroredLane w hj]

/-- Lane `j` makes the round trip through lane `N-1-j`, where it meets its own amount. -/
theorem shiftLanes_right_eq_rev (a b : Word) (w : LaneWidth) :
    shiftLanes a b w .right = rev (shiftLanes (rev a) (mirror b w) w .left) :=
  word_ext_lanes w fun j hj => by
    rw [lane_rev _ w hj, lane_shl _ _ w (mirroredLane_lt w hj), lane_rev_mirroredLane a w hj,
      lane_mirror_mirroredLane b w hj, reverse_shiftLeft_reverse, lane_shr a b w hj]

/-- Lane 0 shifts its only bit out, but reversed it stands in the top lane, whose unmirrored amount is 0. -/
theorem shiftLanes_right_ne_rev_unmirrored :
    shiftLanes 1#256 1#256 .w64 .right ≠ rev (shiftLanes (rev 1#256) 1#256 .w64 .left) := by
  have hlanes : 0 < LaneWidth.w64.lanes := by decide
  have hfirst : lane 1#256 0 .w64 = 1#64 := by decide
  have htop : lane 1#256 (LaneWidth.w64.lanes - 1 - 0) .w64 = 0#64 := by decide
  intro h
  have hlane : 1#64 >>> 1 = 1#64 >>> 0 :=
    calc 1#64 >>> 1
      _ = lane (shiftLanes 1#256 1#256 .w64 .right) 0 .w64 := by rw [lane_shr _ _ .w64 hlanes, hfirst]; rfl
      _ = lane (rev (shiftLanes (rev 1#256) 1#256 .w64 .left)) 0 .w64 := by rw [h]
      _ = 1#64 >>> 0 := by
        rw [lane_rev _ .w64 hlanes, lane_shl _ _ .w64 (mirroredLane_lt .w64 hlanes),
          lane_rev_mirroredLane _ .w64 hlanes, reverse_shiftLeft_reverse, hfirst, htop]
        rfl
  exact absurd hlane (by decide)

/-- Settles O41: one lemma for each part. -/
theorem rightShiftIsTheReversedLeftShift : Obligations.RightShiftIsTheReversedLeftShift := by
  refine ⟨fun v k hk => getLsbD_rev v hk, fun b w j hj => lane_mirror_mirroredLane b w hj, shiftLanes_right_eq_rev,
    fun v w j hj m hm => ?_, 1#256, 1#256, .w64, shiftLanes_right_ne_rev_unmirrored⟩
  rw [lane_rev_mirroredLane v w hj, getLsbD_reverse_of_lt _ hm]

/-! ### Corner cases (43_shift.md R135) -/

/-- An amount of `W - 1` leaves one bit: bit 0 moved to the top, or the top bit moved to bit 0. -/
theorem lane_shift_of_amount_pred {a b : Word} {w : LaneWidth} {j : Nat} (hj : j < w.lanes)
    (h : (lane b j w).toNat = w.bits - 1) :
    (lane (shiftLanes a b w .left) j w).toNat = ((lane a j w).getLsbD 0).toNat * 2 ^ (w.bits - 1) ∧
      (lane (shiftLanes a b w .right) j w).toNat = ((lane a j w).getLsbD (w.bits - 1)).toNat := by
  have hpow : 2 ^ w.bits = 2 * 2 ^ (w.bits - 1) := by
    rw [← Nat.pow_succ', Nat.succ_eq_add_one, Nat.sub_add_cancel w.bits_pos]
  have hlt : (lane a j w).toNat < 2 * 2 ^ (w.bits - 1) := hpow ▸ (lane a j w).isLt
  rw [lane_shl_toNat a b w hj, lane_shr_toNat a b w hj, h, ← BitVec.testBit_toNat, ← BitVec.testBit_toNat,
    Nat.toNat_testBit, Nat.toNat_testBit]
  constructor
  · rw [hpow, Nat.mul_mod_mul_right, Nat.pow_zero, Nat.div_one]
  · exact (Nat.mod_eq_of_lt (Nat.div_lt_of_lt_mul (by rwa [Nat.mul_comm]))).symm

/-- R135's example of different amounts per lane: slice `i` is shifted by `i`. -/
theorem shiftLanes_amounts_example :
    shiftLanes (joinSlices fun _ => 0x01#8) (joinSlices fun i => BitVec.ofNat 8 i) .w8 .left
      = joinSlices fun i => if i < 8 then BitVec.ofNat 8 (2 ^ i) else 0x00#8 :=
  word_ext_lanes .w8 fun j hj => by
    have hshift : ∀ i < 32, 0x01#8 <<< (BitVec.ofNat 8 i).toNat
        = if i < 8 then BitVec.ofNat 8 (2 ^ i) else 0x00#8 := by decide
    rw [lane_shl _ _ .w8 hj, lane_w8, lane_w8, lane_w8, slice_joinSlices _ hj, slice_joinSlices _ hj,
      slice_joinSlices _ hj]
    exact hshift j hj

/-- Each bit of a shifted lane is a bit of the same lane of the value, or 0. -/
theorem getLsbD_lane_shift (a b : Word) (w : LaneWidth) {j m : Nat} (hj : j < w.lanes) (hm : m < w.bits) :
    (lane (shiftLanes a b w .left) j w).getLsbD m =
        (decide ((lane b j w).toNat ≤ m) && (lane a j w).getLsbD (m - (lane b j w).toNat)) ∧
      (lane (shiftLanes a b w .right) j w).getLsbD m =
        (decide (m + (lane b j w).toNat < w.bits) && (lane a j w).getLsbD (m + (lane b j w).toNat)) := by
  constructor
  · rw [lane_shl a b w hj, BitVec.getLsbD_shiftLeft, decide_eq_true hm, Bool.true_and, ← decide_not]
    simp only [Nat.not_lt]
  · rw [lane_shr a b w hj, BitVec.getLsbD_ushiftRight, Nat.add_comm]
    by_cases hinside : m + (lane b j w).toNat < w.bits
    · rw [decide_eq_true hinside, Bool.true_and]
    · rw [BitVec.getLsbD_of_ge _ _ (Nat.not_lt.mp hinside), Bool.and_false]

/-- Settles O42: one lemma for each corner case. -/
theorem shiftCornerCases : Obligations.ShiftCornerCases := by
  refine ⟨fun a b w d j hj hzero => ?_, fun a b w j hj h => lane_shift_of_amount_pred hj h,
    fun a b w d j hj h => lane_shiftLanes_of_bits_le hj h a d,
    fun a d => shiftLanes_joinLanes_const_eq_zero (by decide) a d, shiftLanes_amounts_example,
    fun a w d j hj h => lane_shiftLanes_of_bits_le hj h a d,
    fun a b w j hj _ m hm => getLsbD_lane_shift a b w hj hm, fun a b w d j hj hzero => ?_⟩
  · rw [lane_shiftLanes a b w d hj, shiftLane_of_amount_zero hzero]
  · rw [lane_shiftLanes a b w d hj, hzero, shiftLane_zero]

end Sys2Proof.Machine

namespace Sys2Proof.Machine

/-! ## One evaluation (44_evaluate.md R150, R151) -/

/-! ### The instruction on the selector ports -/

/-- The selector ports name the instruction whose two codes they hold (30_encoding.md R60). -/
theorem fetch_eq_ok_iff (s : State) (i : Instr) :
    s.fetch = .ok i ↔ i.opCode = s.op ∧ i.width.code = s.width := by
  rw [State.fetch, State.controlWord, decode_eq_ok_iff, encode]
  refine ⟨fun hword => ⟨?_, ?_⟩, fun ⟨hop, hwidth⟩ => by rw [hop, hwidth]⟩
  · simpa only [BitVec.extractLsb'_append_eq_left] using congrArg (BitVec.extractLsb' 2 3) hword
  · simpa only [BitVec.extractLsb'_append_eq_right] using congrArg (BitVec.extractLsb' 0 2) hword

/-- The selector ports name no instruction only under the invalid Operation (30_encoding.md R65): any smaller code is
that of an instruction at the width of the port. -/
theorem op_eq_of_fetch_eq_error {s : State} {e : DecodeError} (h : s.fetch = .error e) : s.op = 0b111#3 := by
  by_contra hne
  have hop : s.op.toNat < 7 := by bv_omega
  obtain ⟨i, hiop, hiwidth⟩ := exists_instr_of_codes hop s.width.isLt
  have hfetch : s.fetch = .ok i :=
    (fetch_eq_ok_iff s i).mpr ⟨BitVec.eq_of_toNat_eq hiop, BitVec.eq_of_toNat_eq hiwidth⟩
  rw [h] at hfetch
  cases hfetch

/-- Settles O6: `fetch` decodes the two selector ports, and the step runs what it answers. -/
theorem stepRunsTheDecodedInstruction : Obligations.StepRunsTheDecodedInstruction :=
  fun _ _ hdecode _ => step_eq_exec hdecode

/-! ### The function `Eval` -/

/-- Under the codes of an instruction, `Eval` gives its value and the mask of its lane width (44_evaluate.md R151). -/
theorem eval_codes (i : Instr) (a b : Word) :
    eval i.opCode i.width.code a b = .ok (valueOf i a b) (laneMask i.width) := by
  rw [eval, LaneWidth.ofCode_code]
  cases i <;> rfl

theorem eval_invalidOperation (c : BitVec 2) (a b : Word) : eval 0b111#3 c a b = .configError 0b111#3 := rfl

/-- Settles O8, by the two ends of an evaluation: `Eval` under the codes of an instruction, or under `111`. -/
theorem stepIsTheEvaluationFunction : Obligations.StepIsTheEvaluationFunction := by
  intro s
  obtain ⟨i, hfetch, hstep⟩ | ⟨e, hfetch, hstep⟩ := step_cases s
  · obtain ⟨hop, hwidth⟩ := (fetch_eq_ok_iff s i).mp hfetch
    have heval : eval s.op s.width s.op1 s.op2 = .ok (valueOf i s.op1 s.op2) (laneMask i.width) := by
      rw [← hop, ← hwidth, eval_codes]
    rw [hstep, heval]
    rfl
  · have hop : s.op = 0b111#3 := op_eq_of_fetch_eq_error hfetch
    have heval : eval s.op s.width s.op1 s.op2 = .configError s.op := by
      rw [hop, eval_invalidOperation]
    rw [hstep, heval]
    rfl

/-! ## Invariants (44_evaluate.md R154 to R158) -/

/-! ### Lane isolation (44_evaluate.md R154)

Each datapath gives a lane of its result from the same lane of the two operands. -/

section LaneIsolation

variable {a a' b b' : Word} {w : LaneWidth} {j : Nat}

theorem lane_addsub_congr (sub : Bool) (hj : j < w.lanes) (ha : lane a j w = lane a' j w)
    (hb : lane b j w = lane b' j w) : lane (addsub a b sub w) j w = lane (addsub a' b' sub w) j w := by
  cases sub with
  | false => rw [lane_add a b w hj, lane_add a' b' w hj, ha, hb]
  | true => rw [lane_sub a b w hj, lane_sub a' b' w hj, ha, hb]

theorem lane_compareLanes_congr (want : Sign) (hj : j < w.lanes) (ha : lane a j w = lane a' j w)
    (hb : lane b j w = lane b' j w) :
    lane (compareLanes a b w want) j w = lane (compareLanes a' b' w want) j w := by
  have hsign : laneSign a b w j = laneSign a' b' w j := by
    rw [laneSign_eq_orderSign, laneSign_eq_orderSign, ha, hb]
  rw [lane_compareLanes a b w want hj, lane_compareLanes a' b' w want hj, hsign]

theorem lane_shiftLanes_congr (d : Direction) (hj : j < w.lanes) (ha : lane a j w = lane a' j w)
    (hb : lane b j w = lane b' j w) : lane (shiftLanes a b w d) j w = lane (shiftLanes a' b' w d) j w := by
  rw [lane_shiftLanes a b w d hj, lane_shiftLanes a' b' w d hj, ha, hb]

end LaneIsolation

/-- Lane `j` of an instruction's value depends on lane `j` of the operands alone. -/
theorem lane_valueOf_congr {a a' b b' : Word} {j : Nat} (i : Instr) (hj : j < i.width.lanes)
    (ha : lane a j i.width = lane a' j i.width) (hb : lane b j i.width = lane b' j i.width) :
    lane (valueOf i a b) j i.width = lane (valueOf i a' b') j i.width := by
  cases i with
  | add w => exact lane_addsub_congr false hj ha hb
  | sub w => exact lane_addsub_congr true hj ha hb
  | eq w => exact lane_compareLanes_congr .eq hj ha hb
  | gt w => exact lane_compareLanes_congr .gt hj ha hb
  | lt w => exact lane_compareLanes_congr .lt hj ha hb
  | shl w => exact lane_shiftLanes_congr .left hj ha hb
  | shr w => exact lane_shiftLanes_congr .right hj ha hb

/-- Settles O43: completion by `exec_eq_drive`; a lane other than `k` has the same operand lanes in both states. -/
theorem lanesAreIsolated : Obligations.LanesAreIsolated := by
  intro i s s' k hsame
  refine ⟨_, _, exec_eq_drive i s, exec_eq_drive i s', fun j hj hne => ?_⟩
  obtain ⟨hop1, hop2⟩ := hsame j hj hne
  exact lane_valueOf_congr i hj hop1 hop2

/-! ### Subtraction inverse (44_evaluate.md R155) -/

/-- Settles O28: SUB drives the difference, and ADD of it and the subtrahend cancels. -/
theorem addUndoesSub : Obligations.AddUndoesSub :=
  fun w s => ⟨_, _, exec_eq_drive (.sub w) s, exec_eq_drive (.add w) _, addsub_sub_add_cancel s.op1 s.op2 w⟩

/-! ### Comparison (44_evaluate.md R156, R157) -/

/-- Settles O36: EQ drives the comparison of a Word with itself. -/
theorem eqIsReflexive : Obligations.EqIsReflexive := by
  intro w s hsame
  refine ⟨_, exec_eq_drive (.eq w) s, ?_⟩
  obtain ⟨heq, _, _⟩ := compareLanes_self s.op1 w
  rw [State.drive_result, ← hsame, valueOf, heq]

/-- The lane's sign is one of three, and only the comparison that asks for it is true (42_compare.md R112). -/
theorem lane_compareLanes_trichotomy (a b : Word) (w : LaneWidth) {j : Nat} (hj : j < w.lanes) :
    (lane (compareLanes a b w .eq) j w = BitVec.allOnes w.bits ∧
        lane (compareLanes a b w .gt) j w = 0#w.bits ∧ lane (compareLanes a b w .lt) j w = 0#w.bits) ∨
      (lane (compareLanes a b w .eq) j w = 0#w.bits ∧
        lane (compareLanes a b w .gt) j w = BitVec.allOnes w.bits ∧ lane (compareLanes a b w .lt) j w = 0#w.bits) ∨
      (lane (compareLanes a b w .eq) j w = 0#w.bits ∧
        lane (compareLanes a b w .gt) j w = 0#w.bits ∧
        lane (compareLanes a b w .lt) j w = BitVec.allOnes w.bits) := by
  have hfalse : ∀ want, laneSign a b w j ≠ want → lane (compareLanes a b w want) j w = 0#w.bits :=
    fun _ => lane_compareLanes_of_ne hj
  cases hsign : laneSign a b w j with
  | eq =>
    exact .inl ⟨lane_compareLanes_of_eq hj hsign, hfalse .gt (by simp [hsign]), hfalse .lt (by simp [hsign])⟩
  | gt =>
    exact .inr (.inl ⟨hfalse .eq (by simp [hsign]), lane_compareLanes_of_eq hj hsign, hfalse .lt (by simp [hsign])⟩)
  | lt =>
    exact .inr (.inr ⟨hfalse .eq (by simp [hsign]), hfalse .gt (by simp [hsign]), lane_compareLanes_of_eq hj hsign⟩)

theorem lane_and (u v : Word) (j : Nat) (w : LaneWidth) : lane (u &&& v) j w = lane u j w &&& lane v j w :=
  BitVec.extractLsb'_and

theorem lane_or (u v : Word) (j : Nat) (w : LaneWidth) : lane (u ||| v) j w = lane u j w ||| lane v j w :=
  BitVec.extractLsb'_or

/-- No lane has two signs, so two different comparisons share no bit. -/
theorem compareLanes_and_compareLanes_of_ne (a b : Word) (w : LaneWidth) {want want' : Sign} (hne : want ≠ want') :
    compareLanes a b w want &&& compareLanes a b w want' = 0#256 :=
  word_ext_lanes w fun j hj => by
    rw [lane_and, lane_zero]
    by_cases hsign : laneSign a b w j = want
    · rw [lane_compareLanes_of_ne hj (hsign ▸ hne : laneSign a b w j ≠ want'), BitVec.and_zero]
    · rw [lane_compareLanes_of_ne hj hsign, BitVec.zero_and]

/-- Every lane has a sign, so the three comparisons leave out no bit. -/
theorem compareLanes_or_eq_allOnes (a b : Word) (w : LaneWidth) :
    compareLanes a b w .eq ||| compareLanes a b w .gt ||| compareLanes a b w .lt = BitVec.allOnes 256 :=
  word_ext_lanes w fun j hj => by
    rw [lane_or, lane_or, lane_allOnes w hj]
    obtain ⟨heq, hgt, hlt⟩ | ⟨heq, hgt, hlt⟩ | ⟨heq, hgt, hlt⟩ := lane_compareLanes_trichotomy a b w hj
    · simp [heq, hgt, hlt]
    · simp [heq, hgt, hlt]
    · simp [heq, hgt, hlt]

/-- Settles O37: completion by `exec_eq_drive`; the lanes by their sign, the masks lane by lane. -/
theorem comparisonsAreTrichotomous : Obligations.ComparisonsAreTrichotomous :=
  fun w s => ⟨_, _, _, exec_eq_drive (.eq w) s, exec_eq_drive (.gt w) s, exec_eq_drive (.lt w) s,
    fun _ hj => lane_compareLanes_trichotomy s.op1 s.op2 w hj,
    compareLanes_and_compareLanes_of_ne s.op1 s.op2 w (by decide),
    compareLanes_and_compareLanes_of_ne s.op1 s.op2 w (by decide),
    compareLanes_and_compareLanes_of_ne s.op1 s.op2 w (by decide),
    compareLanes_or_eq_allOnes s.op1 s.op2 w⟩

/-! ### Shift saturation (44_evaluate.md R158) -/

/-- Settles O40: completion by `exec_eq_drive`; R131 holds in both directions. -/
theorem overShiftGivesAZeroLane : Obligations.OverShiftGivesAZeroLane :=
  fun w s => ⟨_, _, exec_eq_drive (.shl w) s, exec_eq_drive (.shr w) s, fun _ hj hover =>
    ⟨lane_shiftLanes_of_bits_le hj hover s.op1 .left, lane_shiftLanes_of_bits_le hj hover s.op1 .right⟩⟩

end Sys2Proof.Machine

namespace Sys2Proof.Machine

open Sys2Proof.Safety

/-! ## The configuration error (60_exceptions.md) -/

/-- Under the invalid selector the evaluation is the ConfigError: no instruction has the Operation code `111`
(30_encoding.md R65). -/
theorem step_of_invalidSelector {s : State} (h : s.op = 0b111#3) : step s = raiseConfigError s := by
  obtain ⟨i, hfetch, _⟩ | ⟨_, _, hstep⟩ := step_cases s
  · obtain ⟨hop, _⟩ := (fetch_eq_ok_iff s i).mp hfetch
    have hlt := i.opCode_toNat_lt
    rw [hop, h] at hlt
    exact absurd hlt (by decide)
  · exact hstep

/-- Under a valid selector the evaluation is that of an instruction (70_reset_and_hazards.md R182). -/
theorem step_of_validSelector {s : State} (h : ValidSelector s) :
    ∃ i, s.fetch = .ok i ∧ step s = .next (s.drive (valueOf i s.op1 s.op2) i.width) := by
  obtain hnext | ⟨_, hfetch, _⟩ := step_cases s
  · exact hnext
  · exact absurd (op_eq_of_fetch_eq_error hfetch) h

/-- Settles O9, by the two kinds of selector; the mask of the instruction is that of the `width` port. -/
theorem invalidSelectorAloneRaisesConfigError : Obligations.InvalidSelectorAloneRaisesConfigError := by
  refine ⟨fun s hop => ?_, fun s hop => ?_⟩
  · rw [step_of_invalidSelector hop, ← hop]
    exact ⟨rfl, outputs_raiseConfigError s⟩
  · obtain ⟨i, hfetch, hstep⟩ := step_of_validSelector hop
    refine ⟨_, hstep, State.drive_cfgErr .., ?_⟩
    rw [hstep, outputs_next, State.drive_cont, State.drive_cfgErr, width_eq_of_fetch hfetch]

/-- One control word presented beside the same operands makes the inputs of one evaluation, whatever the selectors and
the outputs were before. -/
theorem sameInputs_presentControl {s s' : State} (h1 : s.op1 = s'.op1) (h2 : s.op2 = s'.op2) (ctrl : BitVec 5) :
    SameInputs (s.presentControl ctrl) (s'.presentControl ctrl) :=
  ⟨h1, h2, rfl, rfl⟩

/-- Settles O15: the valid control word makes both states the same inputs, and a step reads nothing else. -/
theorem configErrorLeavesNoTrace : Obligations.ConfigErrorLeavesNoTrace := by
  intro s s' ctrl hop _ hop1 hop2 hctrl
  have hinputs := sameInputs_presentControl hop1 hop2 ctrl
  have hvalid : ValidSelector (s.presentControl ctrl) := hctrl
  obtain ⟨i, _, hstep⟩ := step_of_validSelector hvalid
  refine ⟨⟨_, step_of_invalidSelector hop⟩, _, hstep, ?_, State.drive_cfgErr ..⟩
  rw [← stepReadsOnlyTheInputPorts _ _ hinputs, hstep]

/-- Settles O10: every instruction drives its outputs, which leaves the inputs and clears `cfg_err`. -/
theorem noInstructionStopsForAnyOperands : Obligations.NoInstructionStopsForAnyOperands :=
  fun i s => ⟨_, exec_eq_drive i s, sameInputs_drive s _ _, State.drive_cfgErr ..⟩

end Sys2Proof.Machine

namespace Sys2Proof.Machine

open Sys2Proof.Safety

/-! ## Settled outputs (70_reset_and_hazards.md) -/

/-! ### The datapaths meet the lane laws in plain numbers -/

theorem lane_sub_toNat (a b : Word) (w : LaneWidth) {j : Nat} (hj : j < w.lanes) :
    (lane (addsub a b true w) j w).toNat
      = ((((lane a j w).toNat : Int) - ((lane b j w).toNat : Int)) % 2 ^ w.bits).toNat := by
  rw [lane_sub a b w hj, ← toNat_sub_eq_emod, Int.toNat_natCast]

/-- A true lane of the comparator is the largest number of its width (42_compare.md R113). -/
theorem lane_compareLanes_toNat (a b : Word) (w : LaneWidth) (want : Sign) {j : Nat} (hj : j < w.lanes) :
    (lane (compareLanes a b w want) j w).toNat = if laneSign a b w j = want then 2 ^ w.bits - 1 else 0 := by
  rw [lane_compareLanes_eq_ite a b w want hj, apply_ite BitVec.toNat, BitVec.toNat_allOnes, BitVec.toNat_zero]

/-- What an instruction drives follows its lane law in every lane. -/
theorem lane_valueOf_toNat (i : Instr) (a b : Word) {j : Nat} (hj : j < i.width.lanes) :
    (lane (valueOf i a b) j i.width).toNat
      = laneValue i (lane a j i.width).toNat (lane b j i.width).toNat := by
  cases i with
  | add w =>
    obtain ⟨hadd, _⟩ := addSubFollowsTheLaneLaw a b w j hj
    exact hadd
  | sub w => exact lane_sub_toNat a b w hj
  | eq w => simp only [valueOf, laneValue, lane_compareLanes_toNat a b w .eq hj, laneSign_eq_eq_iff, BitVec.toNat_inj]
  | gt w => simp only [valueOf, laneValue, lane_compareLanes_toNat a b w .gt hj, laneSign_eq_gt_iff]
  | lt w => simp only [valueOf, laneValue, lane_compareLanes_toNat a b w .lt hj, laneSign_eq_lt_iff]
  | shl w =>
    rw [laneValue]
    split
    · next hover => exact congrArg BitVec.toNat (lane_shiftLanes_of_bits_le hj hover a .left)
    · exact lane_shl_toNat a b w hj
  | shr w =>
    rw [laneValue]
    split
    · next hover => exact congrArg BitVec.toNat (lane_shiftLanes_of_bits_le hj hover a .right)
    · exact lane_shr_toNat a b w hj

/-! ### The lane laws, R80 and `cfg_err` say every output bit -/

theorem outputsAreOf_drive (i : Instr) (s : State) :
    OutputsAreOf i (s.drive (valueOf i s.op1 s.op2) i.width) :=
  ⟨fun _ hj => lane_valueOf_toNat i s.op1 s.op2 hj, fun _ hk => laneMask_getLsbD i.width hk, rfl⟩

/-- Outputs that follow the laws of an instruction are what it drives: Words with equal lanes are equal, and so are
vectors with equal bits. -/
theorem drive_eq_self_of_outputsAreOf {i : Instr} {s : State} (h : OutputsAreOf i s) :
    s.drive (valueOf i s.op1 s.op2) i.width = s := by
  obtain ⟨hlanes, hcont, hcfgErr⟩ := h
  have hresult : valueOf i s.op1 s.op2 = s.result :=
    word_ext_lanes i.width fun j hj =>
      BitVec.eq_of_toNat_eq ((lane_valueOf_toNat i s.op1 s.op2 hj).trans (hlanes j hj).symm)
  have hmask : laneMask i.width = s.cont :=
    BitVec.eq_of_getLsbD_eq fun k hk => (laneMask_getLsbD i.width hk).trans (hcont k hk).symm
  rw [State.drive, hresult, hmask, causeValid, ← hcfgErr]

/-! ### Steps and settled outputs (70_reset_and_hazards.md R181) -/

/-- A step that answers a state settles its outputs, whatever they held before: it reads none of them. -/
theorem settled_of_step {s t : State} (h : step s = .next t) : Settled t := by
  obtain ⟨i, hfetch, rfl⟩ := step_next h
  exact ⟨i, hfetch, outputsAreOf_drive i s⟩

/-- Settles O44: the step drives the outputs afresh, so it settles those of any state. -/
theorem everyStepKeepsTheOutputsSettled : Obligations.EveryStepKeepsTheOutputsSettled :=
  fun _ _ _ hstep => settled_of_step hstep

/-- Settles O45: a valid selector names an instruction, whose step changes no input and settles the outputs. -/
theorem oneStepSettlesTheOutputs : Obligations.OneStepSettlesTheOutputs := by
  intro s hvalid
  obtain ⟨i, _, hstep⟩ := step_of_validSelector hvalid
  exact ⟨_, hstep, sameInputs_drive s _ _, settled_of_step hstep⟩

/-- Settles O46: the step drives what the settled outputs already are. -/
theorem settledStateIsAFixedPoint : Obligations.SettledStateIsAFixedPoint := by
  rintro s ⟨i, hfetch, houtputs⟩
  rw [step_eq_exec hfetch, exec_eq_drive, drive_eq_self_of_outputsAreOf houtputs]

/-- Settles O47: the reset state is the next state of its own step. -/
theorem resetIsSettled : Obligations.ResetIsSettled := settled_of_step step_reset

end Sys2Proof.Machine
